-- ==== Sys2Proof/Word.lean ====
section
/-! DEFINITION. The word types of the block and their plainest arithmetic.
Every value the block handles is at most one byte wide and unsigned (spec rules R8, R45). -/

namespace Sys2Proof

/-- A byte, bits numbered from 0 at the least significant bit (R8). -/
abbrev Byte := BitVec 8

/-- The 7-bit segment pattern of a ROM word, `pattern[6:0]` (R62). -/
abbrev Pattern := BitVec 7

/-- A 7-bit slave address of the shared serial bus (R43). -/
abbrev Addr7 := BitVec 7

/-- The 3-bit display identifier of a write request (R72). -/
abbrev DisplayId := BitVec 3

end Sys2Proof
end

