-- ==== Sys2Proof/Syntax.lean ====
section
/-! DEFINITION. The syntax: the three formats of the opcode table (character codes, write requests, the initialise
request) and ONE inductive of instructions, one constructor per row of spec/opcode_table.json. -/

namespace Sys2Proof

/-- A request as the front end receives it (R73, R240): `(id, t)`, or `INIT busClockHz`. -/
inductive Request where
  | write (id : DisplayId) (text : List Byte)
  | init (busClockHz : Nat)
  deriving DecidableEq, Repr

/-- A code the block decodes: a character code (table format `char8`), or a request (formats `write_request` and
`init_request`). -/
inductive Code where
  | char (c : Byte)
  | request (r : Request)
  deriving DecidableEq, Repr

/-- The rows of the opcode table. A letter's operand is its case bit `c[5]` (R60): `true` is the lower-case code. -/
inductive Instr where
  /-- '.', class PERIOD (R142). -/
  | period
  /-- ',', class COMMA (R143). -/
  | comma
  /-- The digit '0' (R101). -/
  | glyph0
  /-- The digit '1' (R102). -/
  | glyph1
  /-- The digit '2' (R103). -/
  | glyph2
  /-- The digit '3' (R104). -/
  | glyph3
  /-- The digit '4' (R105). -/
  | glyph4
  /-- The digit '5' (R106). -/
  | glyph5
  /-- The digit '6' (R107). -/
  | glyph6
  /-- The digit '7' (R108). -/
  | glyph7
  /-- The digit '8' (R109). -/
  | glyph8
  /-- The digit '9' (R110). -/
  | glyph9
  /-- The letter 'A' (R111). -/
  | glyphA (lower : Bool)
  /-- The letter 'B' (R112). -/
  | glyphB (lower : Bool)
  /-- The letter 'C' (R113). -/
  | glyphC (lower : Bool)
  /-- The letter 'D' (R114). -/
  | glyphD (lower : Bool)
  /-- The letter 'E' (R115). -/
  | glyphE (lower : Bool)
  /-- The letter 'F' (R116). -/
  | glyphF (lower : Bool)
  /-- The letter 'G' (R117). -/
  | glyphG (lower : Bool)
  /-- The letter 'H' (R118). -/
  | glyphH (lower : Bool)
  /-- The letter 'I' (R119). -/
  | glyphI (lower : Bool)
  /-- The letter 'J' (R120). -/
  | glyphJ (lower : Bool)
  /-- The letter 'L' (R121). -/
  | glyphL (lower : Bool)
  /-- The letter 'N' (R122). -/
  | glyphN (lower : Bool)
  /-- The letter 'O' (R123). -/
  | glyphO (lower : Bool)
  /-- The letter 'P' (R124). -/
  | glyphP (lower : Bool)
  /-- The letter 'S' (R125). -/
  | glyphS (lower : Bool)
  /-- The letter 'T' (R126). -/
  | glyphT (lower : Bool)
  /-- The letter 'U' (R127). -/
  | glyphU (lower : Bool)
  /-- The letter 'Y' (R128). -/
  | glyphY (lower : Bool)
  /-- The space (R129). -/
  | glyphSpace
  /-- The hyphen '-' (R130). -/
  | glyphHyphen
  /-- Every other character code (R132). -/
  | invalid (c : Byte)
  /-- `WRITE LARGE0, text` (R244). -/
  | writeLarge0 (text : List Byte)
  /-- `WRITE LARGE1, text` (R245). -/
  | writeLarge1 (text : List Byte)
  /-- `WRITE SMALL0, text` (R246). -/
  | writeSmall0 (text : List Byte)
  /-- `WRITE SMALL1, text` (R247). -/
  | writeSmall1 (text : List Byte)
  /-- `WRITE SMALL2, text` (R248). -/
  | writeSmall2 (text : List Byte)
  /-- `WRITE ID5, text` (R249). -/
  | writeId5 (text : List Byte)
  /-- `WRITE ID6, text` (R249). -/
  | writeId6 (text : List Byte)
  /-- `WRITE ID7, text` (R249). -/
  | writeId7 (text : List Byte)
  /-- `INIT busClockHz` (R250). -/
  | init (busClockHz : Nat)
  deriving DecidableEq, Repr

end Sys2Proof
end

