-- ==== Sys2Proof/WellFormed.lean ====
section
/-! DEFINITION. Which instructions are well-formed: the checks on an instruction's operands that its type does not
make. The bound TEXT_MAX on a request's text depends on the configuration and is checked where a write runs. -/

namespace Sys2Proof

/-- The 18 upper-case letter codes that have a ROM entry (R111 to R128, R131). -/
def letterCodes : List Byte :=
  [0x41, 0x42, 0x43, 0x44, 0x45, 0x46, 0x47, 0x48, 0x49] ++
  [0x4A, 0x4C, 0x4E, 0x4F, 0x50, 0x53, 0x54, 0x55, 0x59]

/-- The codes that select a row other than INVALID, in the prose of R76. -/
def namedCode (c : Byte) : Bool :=
  c == 0x2E || c == 0x2C || c == 0x20 || c == 0x2D || (decide (0x30 ≤ c) && decide (c ≤ 0x39)) ||
  letterCodes.contains (c &&& 0xDF)

/-- An instruction is well-formed when its operands are ones its row of the table admits: an INVALID character is a
code that no other row matches. Every other operand is admitted at every value. -/
def Instr.wellFormed : Instr → Bool
  | .invalid c => !namedCode c
  | .period | .comma => true
  | .glyph0 | .glyph1 | .glyph2 | .glyph3 | .glyph4 | .glyph5 | .glyph6 | .glyph7 | .glyph8 | .glyph9 => true
  | .glyphA _ | .glyphB _ | .glyphC _ | .glyphD _ | .glyphE _ | .glyphF _ | .glyphG _ | .glyphH _ | .glyphI _ => true
  | .glyphJ _ | .glyphL _ | .glyphN _ | .glyphO _ | .glyphP _ | .glyphS _ | .glyphT _ | .glyphU _ | .glyphY _ => true
  | .glyphSpace | .glyphHyphen => true
  | .writeLarge0 _ | .writeLarge1 _ | .writeSmall0 _ | .writeSmall1 _ | .writeSmall2 _ => true
  | .writeId5 _ | .writeId6 _ | .writeId7 _ => true
  | .init _ => true

end Sys2Proof
end

