-- ==== Sys2Proof/Decode.lean ====
section
/-! DEFINITION. The decoder, total on every code, and after it the encoder, both written from the tables of
spec 30_encoding.md (R60, R61, R72, R76) and spec/opcode_table.json. -/

namespace Sys2Proof

/-- A row of the character table: the row matches `c` when `c &&& mask = pattern`. `instr` takes the case bit. -/
structure CharRow where
  mask : Byte
  pattern : Byte
  instr : Bool → Instr

/-- A row that fixes all eight bits. -/
def CharRow.exact (pattern : Byte) (i : Instr) : CharRow := ⟨0xFF, pattern, fun _ => i⟩

/-- A letter row: bit 5, the case bit, is left out of the match (R131). -/
def CharRow.letter (pattern : Byte) (i : Bool → Instr) : CharRow := ⟨0xDF, pattern, i⟩

/-- Rows PERIOD and COMMA, tested first (R61). -/
def punctuationRows : List CharRow := [.exact 0x2E .period, .exact 0x2C .comma]

/-- Rows GLYPH_0 to GLYPH_9 (R101 to R110). -/
def digitRows : List CharRow :=
  [.exact 0x30 .glyph0, .exact 0x31 .glyph1, .exact 0x32 .glyph2, .exact 0x33 .glyph3, .exact 0x34 .glyph4] ++
  [.exact 0x35 .glyph5, .exact 0x36 .glyph6, .exact 0x37 .glyph7, .exact 0x38 .glyph8, .exact 0x39 .glyph9]

/-- Rows GLYPH_A to GLYPH_Y (R111 to R128). -/
def letterRows : List CharRow :=
  [.letter 0x41 .glyphA, .letter 0x42 .glyphB, .letter 0x43 .glyphC, .letter 0x44 .glyphD, .letter 0x45 .glyphE] ++
  [.letter 0x46 .glyphF, .letter 0x47 .glyphG, .letter 0x48 .glyphH, .letter 0x49 .glyphI, .letter 0x4A .glyphJ] ++
  [.letter 0x4C .glyphL, .letter 0x4E .glyphN, .letter 0x4F .glyphO, .letter 0x50 .glyphP, .letter 0x53 .glyphS] ++
  [.letter 0x54 .glyphT, .letter 0x55 .glyphU, .letter 0x59 .glyphY]

/-- Rows GLYPH_SPACE and GLYPH_HYPHEN (R129, R130). -/
def symbolRows : List CharRow := [.exact 0x20 .glyphSpace, .exact 0x2D .glyphHyphen]

/-- The character rows of the opcode table, but for the catch-all INVALID. -/
def charRows : List CharRow := punctuationRows ++ digitRows ++ letterRows ++ symbolRows

/-- A row matches a character code. -/
def CharRow.hits (r : CharRow) (c : Byte) : Bool := c &&& r.mask == r.pattern

/-- Decodes a character code: the first row that matches it, else INVALID, which has the lowest priority (R61, R76).
`c[5]` is the case bit (R60). -/
def decodeChar (c : Byte) : Instr :=
  match charRows.find? (fun r => r.hits c) with
  | some r => r.instr (c.getLsbD 5)
  | none => .invalid c

/-- Decodes a display identifier with its text (R72). -/
def decodeWrite (id : DisplayId) (text : List Byte) : Instr :=
  match id.toNat with
  | 0 => .writeLarge0 text
  | 1 => .writeLarge1 text
  | 2 => .writeSmall0 text
  | 3 => .writeSmall1 text
  | 4 => .writeSmall2 text
  | 5 => .writeId5 text
  | 6 => .writeId6 text
  | _ => .writeId7 text

/-- Decodes a request (R73). -/
def decodeRequest : Request → Instr
  | .write id text => decodeWrite id text
  | .init hz => .init hz

/-- The decoder. No code fails to decode: "No code makes the block trap or hang at decode" (R74). -/
def decode : Code → Instr
  | .char c => decodeChar c
  | .request r => decodeRequest r

/-! ### The encoder -/

/-- A letter's code: the upper-case code, with bit 5 set for the lower-case form (R60, R131). -/
def letterCode (upper : Byte) (lower : Bool) : Byte := if lower then upper ||| 0x20 else upper

/-- The code of an instruction. -/
def encode : Instr → Code
  | .period => .char 0x2E
  | .comma => .char 0x2C
  | .glyph0 => .char 0x30
  | .glyph1 => .char 0x31
  | .glyph2 => .char 0x32
  | .glyph3 => .char 0x33
  | .glyph4 => .char 0x34
  | .glyph5 => .char 0x35
  | .glyph6 => .char 0x36
  | .glyph7 => .char 0x37
  | .glyph8 => .char 0x38
  | .glyph9 => .char 0x39
  | .glyphA lower => .char (letterCode 0x41 lower)
  | .glyphB lower => .char (letterCode 0x42 lower)
  | .glyphC lower => .char (letterCode 0x43 lower)
  | .glyphD lower => .char (letterCode 0x44 lower)
  | .glyphE lower => .char (letterCode 0x45 lower)
  | .glyphF lower => .char (letterCode 0x46 lower)
  | .glyphG lower => .char (letterCode 0x47 lower)
  | .glyphH lower => .char (letterCode 0x48 lower)
  | .glyphI lower => .char (letterCode 0x49 lower)
  | .glyphJ lower => .char (letterCode 0x4A lower)
  | .glyphL lower => .char (letterCode 0x4C lower)
  | .glyphN lower => .char (letterCode 0x4E lower)
  | .glyphO lower => .char (letterCode 0x4F lower)
  | .glyphP lower => .char (letterCode 0x50 lower)
  | .glyphS lower => .char (letterCode 0x53 lower)
  | .glyphT lower => .char (letterCode 0x54 lower)
  | .glyphU lower => .char (letterCode 0x55 lower)
  | .glyphY lower => .char (letterCode 0x59 lower)
  | .glyphSpace => .char 0x20
  | .glyphHyphen => .char 0x2D
  | .invalid c => .char c
  | .writeLarge0 text => .request (.write 0 text)
  | .writeLarge1 text => .request (.write 1 text)
  | .writeSmall0 text => .request (.write 2 text)
  | .writeSmall1 text => .request (.write 3 text)
  | .writeSmall2 text => .request (.write 4 text)
  | .writeId5 text => .request (.write 5 text)
  | .writeId6 text => .request (.write 6 text)
  | .writeId7 text => .request (.write 7 text)
  | .init hz => .request (.init hz)

/-! ### Table words

The spec lays no request out in bytes. This layout is the model's own (log entry 8): a byte below 8 followed by
text bytes is a write request, a single byte from 8 up is a character, and no byte at all is `INIT 0`, since that row
"has no opcode bits". -/

/-- Why bytes are no table word. -/
inductive DecodeError where
  /-- Several bytes, the first of which is no display identifier (safe: nothing is decoded). -/
  | notADisplayId
  deriving DecidableEq, Repr

/-- Bytes read as a code. -/
def codeOfBytes : List Byte → Except DecodeError Code
  | [] => .ok (.request (.init 0))
  | b :: text =>
    if b.toNat < 8 then .ok (.request (.write (b.setWidth 3) text))
    else match text with
      | [] => .ok (.char b)
      | _ :: _ => .error .notADisplayId

/-- Decodes bytes, rejecting by name. -/
def decodeBytes (bytes : List Byte) : Except DecodeError Instr :=
  match codeOfBytes bytes with
  | .ok c => .ok (decode c)
  | .error e => .error e

/-- The `k` lowest bytes of a number, the least significant first. -/
def bytesOfNat : Nat → Nat → List Byte
  | 0, _ => []
  | k + 1, w => BitVec.ofNat 8 w :: bytesOfNat k (w / 256)

/-- The code whose bits a table word gives. -/
def codeOfTableWord (nbits w : Nat) : Option Code :=
  match codeOfBytes (bytesOfNat ((nbits + 7) / 8) w) with
  | .ok c => some c
  | .error _ => none

/-- What the decoder reads from a table word. -/
def decodeTableWord (nbits w : Nat) : Option Instr := (codeOfTableWord nbits w).map decode

end Sys2Proof
end

