-- ==== Sys2Proof/Machine/Memory.lean ====
section
/-! DEFINITION. Byte memories as lists of cells in one canonical form. The block's one addressed memory is its
character ROM (R40): read-only, so there is a read and no write. -/

namespace Sys2Proof.Machine

/-- A byte memory: its cells, addresses strictly rising, none equal to what an unlisted address reads as. -/
abbrev Memory := List Host.Cell

/-- What an unlisted address reads as: the word of an Invalid entry (R132). -/
def Memory.unlisted : Byte := 0x00

/-- `MemRead(m, a, 1)` (R9). -/
def Memory.read : Memory → Nat → Byte
  | [], _ => Memory.unlisted
  | (b, v) :: rest, a => if b = a then v else Memory.read rest a

/-- The canonical form, from a lower bound on the addresses. -/
def Memory.wfFrom : Nat → Memory → Bool
  | _, [] => true
  | lo, (a, v) :: rest => decide (lo ≤ a) && !(v == Memory.unlisted) && Memory.wfFrom (a + 1) rest

/-- The canonical form of a memory. -/
def Memory.wf (m : Memory) : Bool := Memory.wfFrom 0 m

end Sys2Proof.Machine
end

