-- ==== Sys2Proof/Machine/Rom.lean ====
section
/-! DEFINITION. The character ROM of spec 40_character_rom.md: the word `{valid, pattern[6:0]}` of each valid entry,
by address. Every unlisted address holds 0x00 (R132). It is fixed when the block is built and is no state (R20). -/

namespace Sys2Proof.Machine

/-- Space and hyphen (R129, R130). -/
def romSymbols : Memory := [(0x20, 0x80), (0x2D, 0xC0)]

/-- The digits (R101 to R110). -/
def romDigits : Memory :=
  [(0x30, 0xBF), (0x31, 0x86), (0x32, 0xDB), (0x33, 0xCF), (0x34, 0xE6)] ++
  [(0x35, 0xED), (0x36, 0xFD), (0x37, 0x87), (0x38, 0xFF), (0x39, 0xEF)]

/-- The letters at their upper-case codes (R111 to R128). -/
def romUpper : Memory :=
  [(0x41, 0xF7), (0x42, 0xFC), (0x43, 0xB9), (0x44, 0xDE), (0x45, 0xF9), (0x46, 0xF1)] ++
  [(0x47, 0xEF), (0x48, 0xF6), (0x49, 0x86), (0x4A, 0x8E), (0x4C, 0xB8), (0x4E, 0xD4)] ++
  [(0x4F, 0xBF), (0x50, 0xF3), (0x53, 0xED), (0x54, 0xF8), (0x55, 0xBE), (0x59, 0xEE)]

/-- The letters at their lower-case codes (R131). -/
def romLower : Memory :=
  [(0x61, 0xF7), (0x62, 0xFC), (0x63, 0xB9), (0x64, 0xDE), (0x65, 0xF9), (0x66, 0xF1)] ++
  [(0x67, 0xEF), (0x68, 0xF6), (0x69, 0x86), (0x6A, 0x8E), (0x6C, 0xB8), (0x6E, 0xD4)] ++
  [(0x6F, 0xBF), (0x70, 0xF3), (0x73, 0xED), (0x74, 0xF8), (0x75, 0xBE), (0x79, 0xEE)]

/-- The ROM's contents. -/
def rom : Memory := romSymbols ++ romDigits ++ romUpper ++ romLower

/-- `MemRead(ROM, c, 1)`: the word at address `c` (R40). -/
def romWord (c : Byte) : Byte := rom.read c.toNat

end Sys2Proof.Machine
end

