-- ==== Sys2Proof/Config.lean ====
section
/-! DEFINITION. What is fixed when the block is built: the parameters of R6, the check R7 puts on them, and the
free values (the adapter's answers, R190; the order of held requests, R241). No request changes a parameter (R293). -/

namespace Sys2Proof

/-- A display family (R11). -/
inductive Family where
  | small
  | large
  deriving DecidableEq, Repr

/-- `SMALL_CAP` and `LARGE_CAP`: the digit slots of a family (R6, R11). -/
def Family.cap : Family → Nat
  | .small => 4
  | .large => 6

/-- `SMALL_LEN` and `LARGE_LEN`: the frame length of a family in bytes (R6, R11). -/
def Family.len : Family → Nat
  | .small => 5
  | .large => 8

/-- `SMALL_UNITS` and `LARGE_LINES`: how many units (or lines) a family has (R6). -/
def Family.units : Family → Nat
  | .small => 3
  | .large => 2

/-- The length of the transaction byte buffer `buf[0..12]` (R26). -/
def bufLen : Nat := 13

/-- One item of the power-on sequence `INIT_SEQUENCE` (R250). -/
inductive InitItem where
  /-- `Delay(d)`: one delay event. -/
  | delay (d : Nat)
  /-- `Transaction(a, b)`: one run of the transactor on address `a` and bytes `b`. -/
  | transaction (addr7 : Addr7) (bytes : List Byte)
  deriving DecidableEq, Repr

/-- The sampled signals of the bus adapter (R190). -/
inductive Signal where
  | busIdle
  | startDone
  | startOk
  | txReady
  | txComplete
  | ack
  | stopComplete
  deriving DecidableEq, Repr

/-- The parameters of R6 that are `OPEN`, under the spec's names. `COMMA_BIT(f, k)` is held as one list a family,
entry `k` for slot `k`. -/
structure Params where
  /-- `SMALL_ADDR`. -/
  smallAddr : Addr7
  /-- `LARGE_ADDR`. -/
  largeAddr : Addr7
  /-- `RESET_DATA_POINTER`. -/
  resetDataPointer : Byte
  /-- `COMMAND_FLAG`. -/
  commandFlag : Byte
  /-- `LINE_DEV_ADDR[0]`. -/
  lineDevAddr0 : Byte
  /-- `LINE_DEV_ADDR[1]`. -/
  lineDevAddr1 : Byte
  /-- `DATA_POINTER_ZERO`. -/
  dataPointerZero : Byte
  /-- `DATA_FLAG`. -/
  dataFlag : Byte
  /-- `PADDING_BYTE`. -/
  paddingByte : Byte
  /-- `COMMA_BIT(Small, ·)`. -/
  commaBitSmall : List Nat
  /-- `COMMA_BIT(Large, ·)`. -/
  commaBitLarge : List Nat
  /-- `RECOVERY_DELAY`. -/
  recoveryDelay : Nat
  /-- `RECOVERY_LIMIT`, or none. -/
  recoveryLimit : Option Nat
  /-- `WAIT_LIMIT`, or none. -/
  waitLimit : Option Nat
  /-- `STOP_ON_ADDR_NACK`. -/
  stopOnAddrNack : Bool
  /-- `STOP_ON_DATA_NACK`. -/
  stopOnDataNack : Bool
  /-- `TEXT_MAX`, or unbounded. -/
  textMax : Option Nat
  /-- `INIT_SEQUENCE`. -/
  initSequence : List InitItem
  /-- `INIT_STOP_ON_ERROR`. -/
  initStopOnError : Bool
  /-- `SYS_CLOCK_HZ`. -/
  sysClockHz : Nat
  deriving DecidableEq, Repr

/-- `COMMA_BIT(f, ·)` is injective over the slots of `f` and each value is in 0..7 (R7). -/
def commaBitsOk (f : Family) (bits : List Nat) : Bool :=
  bits.length == f.cap && decide bits.Nodup && bits.all (fun b => decide (b < 8))

/-- A bound is none or at least 1 (R7). -/
def boundOk : Option Nat → Bool
  | none => true
  | some k => decide (1 ≤ k)

/-- The block "uses exactly two addresses" (R43), `SMALL_ADDR` and `LARGE_ADDR`. -/
def Params.usesAddr (p : Params) (a : Addr7) : Bool := a == p.smallAddr || a == p.largeAddr

/-- A power-on transaction goes to one of the block's two addresses (R43), and its bytes fit the 13-byte buffer that
accept copies them into (DEDUCED from R26, log entry 5). -/
def Params.admitsItem (p : Params) : InitItem → Bool
  | .delay _ => true
  | .transaction a bytes => p.usesAddr a && decide (bytes.length ≤ bufLen)

/-- The constraints of R7, and those on the power-on transactions. The ranges of the two addresses hold by their
type. -/
def Params.valid (p : Params) : Bool :=
  decide (p.smallAddr ≠ p.largeAddr) &&
  decide (p.lineDevAddr0 ≠ p.lineDevAddr1) &&
  commaBitsOk .small p.commaBitSmall &&
  commaBitsOk .large p.commaBitLarge &&
  boundOk p.recoveryLimit && boundOk p.waitLimit && boundOk p.textMax &&
  p.initSequence.all p.admitsItem

/-- A configuration: parameters with the proof that they meet R7, so that one that breaks R7 cannot be built. -/
structure Config where
  params : Params
  ok : params.valid = true
  deriving DecidableEq, Repr

/-- Takes raw parameters as a configuration, or rejects them (R7). -/
def Config.ofParams (p : Params) : Option Config :=
  if h : p.valid = true then some ⟨p, h⟩ else none

/-! ### Free values: nothing in Lean can evaluate them -/

/-- FREE VALUE (R190, I6): the adapter's answer to the `k`-th sample, when the state lists no answer to come. -/
opaque Config.freeAnswer : Signal → Nat → Bool

/-- FREE VALUE (R241, I10): which of several held requests is accepted. -/
opaque Config.freePick : Nat → Nat

/-! ### The parameters the machine has at reset, where the spec gives no default (D7, D8, D13, D15, D21, log entry 3) -/

opaque Config.openSmallAddr : Addr7
opaque Config.openLargeAddr : Addr7
opaque Config.openResetDataPointer : Byte
opaque Config.openCommandFlag : Byte
opaque Config.openLineDevAddr0 : Byte
opaque Config.openLineDevAddr1 : Byte
opaque Config.openDataPointerZero : Byte
opaque Config.openDataFlag : Byte
opaque Config.openPaddingByte : Byte
opaque Config.openRecoveryDelay : Nat
opaque Config.openStopOnDataNack : Bool
opaque Config.openInitSequence : List InitItem
opaque Config.openInitStopOnError : Bool
opaque Config.openSysClockHz : Nat

/-- `b`, or its successor where `b` equals `a`: any two distinct values are some `a` and `apart a b`. -/
def apart {w : Nat} (a b : BitVec w) : BitVec w := if b = a then b + 1 else b

/-- An item cut to what the 13-byte buffer holds, its address `large` unless it is `small`. An item within both
constraints stays as it is. -/
def InitItem.clip (small large : Addr7) : InitItem → InitItem
  | .delay d => .delay d
  | .transaction a bytes => .transaction (if a = small then small else large) (bytes.take bufLen)

/-- The parameters at reset: the spec's default where D6, D14, D15 or D2 names one, else a free constant. -/
def Params.atReset : Params where
  smallAddr := Config.openSmallAddr
  largeAddr := apart Config.openSmallAddr Config.openLargeAddr
  resetDataPointer := Config.openResetDataPointer
  commandFlag := Config.openCommandFlag
  lineDevAddr0 := Config.openLineDevAddr0
  lineDevAddr1 := apart Config.openLineDevAddr0 Config.openLineDevAddr1
  dataPointerZero := Config.openDataPointerZero
  dataFlag := Config.openDataFlag
  paddingByte := Config.openPaddingByte
  commaBitSmall := [0, 1, 2, 3]
  commaBitLarge := [0, 1, 2, 3, 4, 5]
  recoveryDelay := Config.openRecoveryDelay
  recoveryLimit := none
  waitLimit := none
  stopOnAddrNack := false
  stopOnDataNack := Config.openStopOnDataNack
  textMax := none
  initSequence := Config.openInitSequence.map
    (InitItem.clip Config.openSmallAddr (apart Config.openSmallAddr Config.openLargeAddr))
  initStopOnError := Config.openInitStopOnError
  sysClockHz := Config.openSysClockHz

theorem apart_ne {w : Nat} (hw : 0 < w) (a b : BitVec w) : a ≠ apart a b := by
  unfold apart
  split
  · rename_i h
    subst h
    intro h
    have := congrArg BitVec.toNat h
    rw [BitVec.toNat_add] at this
    have h2 : 2 ≤ 2 ^ w := by
      calc 2 = 2 ^ 1 := rfl
        _ ≤ 2 ^ w := Nat.pow_le_pow_right (by decide) hw
    have h1 : (1 : BitVec w).toNat = 1 := by
      simp [Nat.mod_eq_of_lt (show 1 < 2 ^ w by omega)]
    have hb := b.isLt
    rw [h1] at this
    by_cases hlt : b.toNat + 1 < 2 ^ w
    · rw [Nat.mod_eq_of_lt hlt] at this; omega
    · have he : b.toNat + 1 = 2 ^ w := by omega
      rw [he, Nat.mod_self] at this; omega
  · rename_i h
    exact fun h' => h h'.symm

theorem InitItem.clip_admitted (p : Params) (i : InitItem) :
    p.admitsItem (i.clip p.smallAddr p.largeAddr) = true := by
  cases i with
  | delay d => rfl
  | transaction a b =>
    simp only [InitItem.clip, Params.admitsItem, Params.usesAddr]
    split <;> simp

theorem Params.atReset_valid : Params.atReset.valid = true := by
  have h1 := apart_ne (by decide) Config.openSmallAddr Config.openLargeAddr
  have h2 := apart_ne (by decide) Config.openLineDevAddr0 Config.openLineDevAddr1
  have h3 : Params.atReset.initSequence.all Params.atReset.admitsItem = true := by
    rw [List.all_eq_true]
    intro i hi
    obtain ⟨j, -, rfl⟩ := List.mem_map.1 hi
    exact InitItem.clip_admitted Params.atReset j
  have h4 : commaBitsOk .small [0, 1, 2, 3] = true := by decide
  have h5 : commaBitsOk .large [0, 1, 2, 3, 4, 5] = true := by decide
  simp only [Params.valid, h3]
  simp only [Params.atReset, h4, h5, boundOk]
  simp [h1, h2]

/-- The configuration of the machine at reset. -/
def Config.atReset : Config := ⟨Params.atReset, Params.atReset_valid⟩

end Sys2Proof
end

