-- ==== Sys2Proof/Machine/State.lean ====
section
/-! DEFINITION. The state of the block as plain data: every element of spec 10_state.md, the inputs waiting at its
boundary, and the state after reset (R29, R290). -/

namespace Sys2Proof.Machine

/-- A bus event, or an adapter event of initialisation (R9, R190, R250). -/
inductive Event where
  /-- A stop condition issued by idle recovery. -/
  | forcedStop
  /-- `Delay(d)`. -/
  | delay (d : Nat)
  /-- A start condition. -/
  | start
  /-- `Send(b)`: one byte transmitted. -/
  | send (b : Byte)
  /-- A stop condition that ends a transaction. -/
  | stop
  /-- `AdapterConfigure(f)`. -/
  | adapterConfigure (hz : Nat)
  /-- `AdapterSetFrequency(hz)`. -/
  | adapterSetFrequency (hz : Nat)
  /-- `AdapterEnable(b)`. -/
  | adapterEnable (on : Bool)
  deriving DecidableEq, Repr

/-- The error values (R260). -/
inductive Err where
  | invalidArgument
  | busStartFailure
  | addressNackFailure
  /-- `byteIndex` is the unacknowledged byte's index in `buf` (R206). -/
  | dataNackFailure (byteIndex : Byte)
  | timeoutError
  deriving DecidableEq, Repr

/-- A result value (R75). Status 6 is never produced and has no value here (I16). -/
inductive Result where
  | success
  | error (e : Err)
  /-- `NONE`: no request has completed. -/
  | none
  deriving DecidableEq, Repr

/-- The transactor's state register `fsm`, one constructor for each pair `(phase, sub)` of R25. -/
inductive Fsm where
  | ready
  | idle
  | recovering
  | startingIssue
  | startingWaitStart
  | addressWaitReady
  | addressWaitComplete
  | dataWaitReady
  | dataWaitComplete
  | stoppingIssue
  | stoppingWaitStop
  | abortStoppingIssue
  | abortStoppingWaitStop
  | done
  | aborted
  deriving DecidableEq, Repr

/-- The phases of R25. -/
inductive Phase where
  | ready
  | idle
  | recovering
  | starting
  | address
  | data
  | stopping
  | abortStopping
  | done
  | aborted
  deriving DecidableEq, Repr

/-- The sub values of R25. -/
inductive Sub where
  | issue
  | waitStart
  | waitReady
  | waitComplete
  | waitStop
  deriving DecidableEq, Repr

/-- The phase half of `fsm`. -/
def Fsm.phase : Fsm → Phase
  | .ready => .ready
  | .idle => .idle
  | .recovering => .recovering
  | .startingIssue | .startingWaitStart => .starting
  | .addressWaitReady | .addressWaitComplete => .address
  | .dataWaitReady | .dataWaitComplete => .data
  | .stoppingIssue | .stoppingWaitStop => .stopping
  | .abortStoppingIssue | .abortStoppingWaitStop => .abortStopping
  | .done => .done
  | .aborted => .aborted

/-- The sub half of `fsm`, where the phase has one. -/
def Fsm.sub : Fsm → Option Sub
  | .startingIssue | .stoppingIssue | .abortStoppingIssue => some .issue
  | .startingWaitStart => some .waitStart
  | .addressWaitReady | .dataWaitReady => some .waitReady
  | .addressWaitComplete | .dataWaitComplete => some .waitComplete
  | .stoppingWaitStop | .abortStoppingWaitStop => some .waitStop
  | .ready | .idle | .recovering | .done | .aborted => none

/-- To whom the running transaction returns (R250): the requester of a write, or the loop of an initialise request,
with its `first` error so far and the items of `INIT_SEQUENCE` still to run. -/
inductive Caller where
  | requester
  | initialise (first : Result) (rest : List InitItem)
  deriving DecidableEq, Repr

/-- The encoder's working state (R22), with the operands `t`, `f` of the encode (R140) and the unit `u` of the write
it belongs to (R242). It exists only during one encode operation. -/
structure EncodeRun where
  /-- The family `f`. -/
  family : Family
  /-- The unit (or line) `u` that `route` gave. -/
  unit : Nat
  /-- The text `t[0..L-1]`. -/
  text : List Byte
  /-- The segment frame being built. -/
  frame : List Byte
  /-- Slot of the most recently placed character. `cap(f)` is the sentinel. -/
  cursor : Nat
  /-- Set when capacity is exhausted. -/
  halted : Bool
  /-- Index of the next text character to read, −1 when none is left. -/
  scan : Int
  deriving DecidableEq, Repr

/-- Why the machine stops with a fault. -/
inductive Fault where
  /-- A transactor step reads a register that nothing has written since reset: "reading one before the accept step
  writes it is a model fault" (R29). Safe: the machine stops, and no state that reset leads to raises it. -/
  | unspecifiedRead
  /-- The send of a data byte with `i` not below `n`, where its rule does not fire (R200), or beyond the 13 bytes of
  `buf` (log entry 21). Safe: the machine stops, and no state that reset leads to raises it. -/
  | dataIndex
  /-- A character operation where no encode has a character left to read: the working state it acts on exists only
  during one encode (R22, R140, log entry 4). Raised by the character instructions. Safe: the machine stops. -/
  | noCharacter
  deriving DecidableEq, Repr

/-- Why a step has no meaning. -/
inductive Refusal where
  /-- The instruction has no meaning yet. Safe. -/
  | notModelled (mnemonic : String)
  /-- A text longer than `TEXT_MAX`, raised by the write requests to a display: "The request has no meaning" (I17,
  log entry 16). Safe. -/
  | textTooLong
  /-- READY with no request held, raised by `step`: it "has no step: it is the quiescent end of a run" (R212, log
  entry 15). Safe. -/
  | quiescent
  deriving DecidableEq, Repr

/-- The state of the block. -/
structure State where
  /-- The parameters the block was built with. No step writes them (R20, R293, log entry 1). -/
  cfg : Config
  /-- The transactor's state register (R25). -/
  fsm : Fsm
  /-- The latched target slave address (R26). -/
  addr7 : Addr7
  /-- The latched framed sequence, 13 bytes (R26, R42). -/
  buf : List Byte
  /-- How many bytes of `buf` are valid (R26). -/
  n : Nat
  /-- The index of the data byte being sent (R26). -/
  i : Nat
  /-- The latched error of an aborting transaction (R26). -/
  err : Err
  /-- Forced stops issued in this transaction (R26). -/
  rcount : Nat
  /-- False polls of the current wait (R26). -/
  wcount : Nat
  /-- The result of the last completed request (R26). -/
  result : Result
  /-- The bus trace, oldest event first (R28). -/
  trace : List Event
  /-- The results returned to requesters, oldest first (R28). -/
  returned : List Result
  /-- The encoder's working state, while an encode is under way (R22). -/
  encoding : Option EncodeRun
  /-- To whom the running transaction returns (R250). -/
  caller : Caller
  /-- Whether an accept has written `addr7`, `buf`, `n`, `i`, `rcount` and `wcount` since reset (R29). -/
  latched : Bool
  /-- Whether an error has been written to `err` since reset (R29). -/
  errLatched : Bool
  /-- Requests presented and not yet accepted (R241). -/
  held : List Request
  /-- INPUT: the adapter's answers to the samples to come, as far as they are settled, the next one first (R190, log entry 9). -/
  answers : List Bool
  /-- The MODEL's own counter of draws, which the free values are applied to. -/
  draws : Nat
  /-- INPUT: reset is asserted (R291). -/
  resetAsserted : Bool
  deriving DecidableEq, Repr

/-- The state after reset with parameters `c` (R29, R290). The registers R29 leaves unspecified hold zero (`err` the
lowest error code), which no step reads while `latched` and `errLatched` are false (log entry 2). -/
def State.resetWith (c : Config) : State where
  cfg := c
  fsm := .ready
  addr7 := 0
  buf := List.replicate bufLen 0
  n := 0
  i := 0
  err := .invalidArgument
  rcount := 0
  wcount := 0
  result := .none
  trace := []
  returned := []
  encoding := none
  caller := .requester
  latched := false
  errLatched := false
  held := []
  answers := []
  draws := 0
  resetAsserted := false

/-- The machine right after reset. -/
def State.reset : State := State.resetWith Config.atReset

end Sys2Proof.Machine
end

