-- ==== Sys2Proof/Machine/Operands.lean ====
section
/-! DEFINITION. The operand forms: parameters read at an index (R6), the text bound (R73), character classes and ROM
lookup (R61, R62, R100), the bytes built from them (R63, R68, R69), and the result code (R75). -/

namespace Sys2Proof

/-- `COMMA_BIT(f, ·)` as a list over the slots of `f`. -/
def Params.commaBits (p : Params) : Family → List Nat
  | .small => p.commaBitSmall
  | .large => p.commaBitLarge

/-- `COMMA_BIT(f, k)`. A valid configuration lists every slot of `f`, so the default is never read there. -/
def Params.commaBit (p : Params) (f : Family) (k : Nat) : Nat := (p.commaBits f).getD k 0

/-- `LINE_DEV_ADDR[line]` for `line` 0 or 1. -/
def Params.lineDevAddr (p : Params) (line : Nat) : Byte := if line = 0 then p.lineDevAddr0 else p.lineDevAddr1

/-- A text is within `TEXT_MAX` (R73). With no bound every text is. -/
def Params.admitsText (p : Params) (text : List Byte) : Bool :=
  match p.textMax with
  | none => true
  | some k => decide (text.length ≤ k)

end Sys2Proof

namespace Sys2Proof.Machine

/-- The `valid` bit of a ROM word, bit 7 (R62). -/
def wordValid (w : Byte) : Bool := w.getLsbD 7

/-- The `pattern` field of a ROM word, bits 6:0 (R62). -/
def wordPattern (w : Byte) : Pattern := w.setWidth 7

/-- `codeFor(c)`: the pattern of a supported character, or none for `Invalid` (R100). -/
def codeFor (c : Byte) : Option Pattern :=
  if wordValid (romWord c) then some (wordPattern (romWord c)) else none

/-- The segment code `zext_8(p) << 1` (R63). -/
def segmentCode (p : Pattern) : Byte := p.setWidth 8 <<< 1

/-- The class of a character (R61). -/
inductive CharClass where
  | period
  | comma
  | glyph (p : Pattern)
  | invalid
  deriving DecidableEq, Repr

/-- The class of a character, tested in the priority order of R61. -/
def classOf (c : Byte) : CharClass :=
  if c = 0x2E then .period
  else if c = 0x2C then .comma
  else match codeFor c with
    | some p => .glyph p
    | none => .invalid

/-- The address byte `addr7 << 1`, read/write bit 0 (R68, R197). -/
def addressByte (a : Addr7) : Byte := a.setWidth 8 <<< 1

/-- The device-select byte `0x60 | index` (R69). -/
def deviceSelect (index : Nat) : Byte := 0x60 ||| BitVec.ofNat 8 index

/-- The status code of an error (R260). -/
def Err.status : Err → BitVec 3
  | .invalidArgument => 1
  | .busStartFailure => 2
  | .addressNackFailure => 3
  | .dataNackFailure _ => 4
  | .timeoutError => 5

/-- The `status` field of a result (R75). -/
def Result.status : Result → BitVec 3
  | .success => 0
  | .error e => e.status
  | .none => 7

/-- The `index` field of a result (R75). -/
def Result.index : Result → Byte
  | .error (.dataNackFailure k) => k
  | _ => 0

/-- The result code `{status[2:0], index[7:0]}` (R75). -/
def Result.word (r : Result) : BitVec 11 := r.status ++ r.index

/-- A result code read back. Status 6 is refused (I16), and so is an index on a status that carries none (R75). -/
def Result.ofWord (w : BitVec 11) : Option Result :=
  let status : BitVec 3 := w.extractLsb' 8 3
  let index : Byte := w.extractLsb' 0 8
  if status = 4 then some (.error (.dataNackFailure index))
  else if index ≠ 0 then Option.none
  else if status = 0 then some .success
  else if status = 1 then some (.error .invalidArgument)
  else if status = 2 then some (.error .busStartFailure)
  else if status = 3 then some (.error .addressNackFailure)
  else if status = 5 then some (.error .timeoutError)
  else if status = 7 then some Result.none
  else Option.none

end Sys2Proof.Machine
end

