-- ==== Sys2Proof/Machine/Flags.lean ====
section
/-! DEFINITION. The flags: the DP bit of a digit byte and the comma bits of the comma byte (R24, R64, R65). The block
has no other flag, and each lives in the frame. -/

namespace Sys2Proof.Machine

/-- The period (DP) flag of a digit byte, bit 0 (R24, R63). -/
def dpFlag : Byte := 0x01

/-- The comma flag of slot `k`: bit `COMMA_BIT(f, k)` of the comma byte (R24, R65). -/
def commaFlag (p : Params) (f : Family) (k : Nat) : Byte := 0x01 <<< p.commaBit f k

/-- A digit has been placed: "the condition cursor ≠ cap(f)" (R23). -/
def EncodeRun.placed (e : EncodeRun) : Bool := decide (e.cursor ≠ e.family.cap)

/-- `MemWrite(FRAME, k, 1, frame[k] | v)`: every frame write is a bitwise OR into one byte (R41). -/
def orByte (frame : List Byte) (k : Nat) (v : Byte) : List Byte := frame.modify k (fun b => b ||| v)

end Sys2Proof.Machine
end

