-- ==== Sys2Proof/Machine/Ops.lean ====
section
/-! DEFINITION. The named operations on the state: emitting an event, sampling a signal, holding and taking a request,
accepting a descriptor, waiting, aborting (this block's exception entry) and returning a result, and reset. -/

namespace Sys2Proof.Machine

/-- The outcome of one step of the block. -/
abbrev Out := Host.Outcome State Fault Refusal

/-- `emit E`: appends an event to the bus trace (R9). -/
def State.emit (s : State) (e : Event) : State := { s with trace := s.trace ++ [e] }

/-- `fsm <- S` (R9). -/
def State.setFsm (s : State) (f : Fsm) : State := { s with fsm := f }

/-- `busy`, the condition `fsm.phase ≠ READY` (R27). -/
def State.busy (s : State) : Bool := decide (s.fsm.phase ≠ .ready)

/-! ### Samples -/

/-- `sample sig`: the adapter's answer, a draw under no law (R9, R190). It is the next settled answer, or a free value
where none is settled. -/
def State.answer (s : State) (sig : Signal) : Bool :=
  match s.answers with
  | b :: _ => b
  | [] => Config.freeAnswer sig s.draws

/-- The state after a sample: the answer is used up. "A sample of an adapter signal has no side effect on the block"
(R47), so only the model's own inputs move. -/
def State.sampled (s : State) : State := { s with answers := s.answers.tail, draws := s.draws + 1 }

/-! ### Requests -/

/-- A request is accepted only in `(READY, –)` (R240), and not inside another request's encode (R242 is one step, log
entry 7). -/
def State.accepts (s : State) : Bool := decide (s.fsm = .ready) && s.encoding.isNone

/-- A request presented and held: neither accepted nor dropped (R241). -/
def State.present (s : State) (r : Request) : State := { s with held := s.held ++ [r] }

/-- Takes one held request. Which one goes first is left open (R241), so among several it is a free value (log entry 10). -/
def State.takeHeld (s : State) : Option (Request × State) :=
  match s.held with
  | [] => none
  | [r] => some (r, { s with held := [] })
  | r :: r' :: rest =>
    let k := Config.freePick s.draws % (r :: r' :: rest).length
    some ((r :: r' :: rest).getD k r,
      { s with held := (r :: r' :: rest).eraseIdx k, draws := s.draws + 1 })

/-- `result <- r; return result` to the requester (R240). -/
def State.returnResult (s : State) (r : Result) : State := { s with result := r, returned := s.returned ++ [r] }

/-! ### Accept -/

/-- A transaction descriptor `(addr7, buf[0..n-1])`, `n` being the number of bytes (42_device_framing.md). -/
structure Descriptor where
  addr7 : Addr7
  bytes : List Byte
  deriving DecidableEq, Repr

/-- `for j in 0..m-1: buf[j] <- b[j]` (R192): the first bytes are overwritten, the others keep their values. -/
def latchBytes (buf bytes : List Byte) : List Byte := bytes ++ buf.drop bytes.length

/-- Accept: latches a descriptor and enters IDLE (R192). -/
def State.accept (s : State) (d : Descriptor) : State :=
  { s with
    addr7 := d.addr7
    buf := latchBytes s.buf d.bytes
    n := d.bytes.length
    i := 0
    rcount := 0
    wcount := 0
    latched := true
    fsm := .idle }

/-! ### Abort entry, and waiting -/

/-- `raise Abort(err)`, the block's exception entry (R268): latches the error and goes to ABORTED, or first through
ABORT_STOPPING where the stop parameter asks for a stop. Nothing else is saved. -/
def State.raiseAbort (s : State) (e : Err) (stopFirst : Bool) : State :=
  { s with err := e, errLatched := true, fsm := if stopFirst then .abortStoppingIssue else .aborted }

/-- A timeout of a wait: TIMEOUT_ERROR, with no Stop (R191, R265). -/
def State.timeout (s : State) : State := s.raiseAbort .timeoutError false

/-- A timeout of the stop wait of an abort: `err` keeps the first error (R205). -/
def State.timeoutKeepingErr (s : State) : State := s.setFsm .aborted

/-- Reads a transactor register, and goes on with `k`: "reading one before the accept step writes it is a model fault"
(R29). A step that reads none of them runs, whether or not they are written. -/
def State.reading (s : State) (k : Out) : Out := if s.latched then k else .fault .unspecifiedRead

/-- `wait(sig, onTrue)` (R191). The limit is tested only on a false sample (R267). -/
def State.wait (s : State) (sig : Signal) (onTrue : State → Out) (onTimeout : State → State) : Out :=
  if s.answer sig then onTrue { s.sampled with wcount := 0 }
  else match s.cfg.params.waitLimit with
    | none => .next s.sampled
    | some limit =>
      s.reading (
        if limit ≤ s.wcount + 1 then .next (onTimeout { s.sampled with wcount := s.wcount + 1 })
        else .next { s.sampled with wcount := s.wcount + 1 })

/-! ### Reset -/

/-- Reset (R29, R290, R291): no Stop, no result, the running request lost. The requests not yet accepted stay held by
their requesters, and the adapter's answers are no state of the block (log entry 11). -/
def State.applyReset (s : State) : State :=
  { State.resetWith s.cfg with held := s.held, answers := s.answers, draws := s.draws }

end Sys2Proof.Machine
end

