-- ==== Sys2Proof/Machine/Encoder.lean ====
section
/-! DEFINITION. The segment encoder of spec 41_segment_encoder.md: the step of each character class on the working
state, the whole encode, and the operation the character instructions share. -/

namespace Sys2Proof.Machine

/-- Initialisation: a zero frame, the cursor at the sentinel, the scan at the last character (R141, R22). -/
def EncodeRun.start (f : Family) (unit : Nat) (text : List Byte) : EncodeRun where
  family := f
  unit := unit
  text := text
  frame := List.replicate f.len 0x00
  cursor := f.cap
  halted := false
  scan := (text.length : Int) - 1

/-- The character `t[scan]` the loop reads next, while `scan ≥ 0` and `halted = 0` (R140). -/
def EncodeRun.nextChar (e : EncodeRun) : Option Byte :=
  if e.halted then none
  else match e.scan with
    | .ofNat k => e.text[k]?
    | .negSucc _ => none

/-- `step_period` (R142). -/
def EncodeRun.stepPeriod (e : EncodeRun) : EncodeRun :=
  if e.placed then { e with frame := orByte e.frame e.cursor dpFlag } else e

/-- `step_comma` (R143). -/
def EncodeRun.stepComma (p : Params) (e : EncodeRun) : EncodeRun :=
  if e.placed then { e with frame := orByte e.frame e.family.cap (commaFlag p e.family e.cursor) } else e

/-- `step_glyph(p)` (R144), and the halt when capacity is exhausted (R146). -/
def EncodeRun.stepGlyph (pattern : Pattern) (e : EncodeRun) : EncodeRun :=
  if e.cursor = 0 then { e with halted := true }
  else { e with cursor := e.cursor - 1, frame := orByte e.frame (e.cursor - 1) (segmentCode pattern) }

/-- `step_invalid`: the character is skipped (R145). -/
def EncodeRun.stepInvalid (e : EncodeRun) : EncodeRun := e

/-- `scan <- scan - 1` (R140). -/
def EncodeRun.advance (e : EncodeRun) : EncodeRun := { e with scan := e.scan - 1 }

/-- One iteration of the loop of R140, for a character of a class. -/
def EncodeRun.classStep (p : Params) (cl : CharClass) (e : EncodeRun) : EncodeRun :=
  match cl with
  | .period => e.stepPeriod.advance
  | .comma => (e.stepComma p).advance
  | .glyph pattern => (e.stepGlyph pattern).advance
  | .invalid => e.stepInvalid.advance

/-- The loop of R140 over the characters still to read, the rightmost first. -/
def EncodeRun.scanAll (p : Params) : List Byte → EncodeRun → EncodeRun
  | [], e => e
  | c :: rest, e => if e.halted then e else EncodeRun.scanAll p rest (e.classStep p (classOf c))

/-- `encode(t, f)`: the frame (R140, R147). -/
def encodeText (p : Params) (t : List Byte) (f : Family) : List Byte :=
  (EncodeRun.scanAll p t.reverse (EncodeRun.start f 0 t)).frame

/-- A character operation: acts on the working state of the encode under way, then moves the scan on. -/
def State.onEncoder (s : State) (f : EncodeRun → EncodeRun) : Out :=
  match s.encoding with
  | some e => if e.nextChar.isSome then .next { s with encoding := some (f e).advance } else .fault .noCharacter
  | none => .fault .noCharacter

end Sys2Proof.Machine
end

