-- ==== Sys2Proof/Machine/Digits.lean ====
section
/-! DEFINITION. The meanings of the digit rows: each places its rule's pattern in the next slot (R144, R146). -/

namespace Sys2Proof.Machine

/-- GLYPH_0: pattern 0x3F (R101). -/
def execGlyph0 (s : State) : Out := s.onEncoder (EncodeRun.stepGlyph 0x3F)

/-- GLYPH_1: pattern 0x06 (R102). -/
def execGlyph1 (s : State) : Out := s.onEncoder (EncodeRun.stepGlyph 0x06)

/-- GLYPH_2: pattern 0x5B (R103). -/
def execGlyph2 (s : State) : Out := s.onEncoder (EncodeRun.stepGlyph 0x5B)

/-- GLYPH_3: pattern 0x4F (R104). -/
def execGlyph3 (s : State) : Out := s.onEncoder (EncodeRun.stepGlyph 0x4F)

/-- GLYPH_4: pattern 0x66 (R105). -/
def execGlyph4 (s : State) : Out := s.onEncoder (EncodeRun.stepGlyph 0x66)

/-- GLYPH_5: pattern 0x6D (R106). -/
def execGlyph5 (s : State) : Out := s.onEncoder (EncodeRun.stepGlyph 0x6D)

/-- GLYPH_6: pattern 0x7D (R107). -/
def execGlyph6 (s : State) : Out := s.onEncoder (EncodeRun.stepGlyph 0x7D)

/-- GLYPH_7: pattern 0x07 (R108). -/
def execGlyph7 (s : State) : Out := s.onEncoder (EncodeRun.stepGlyph 0x07)

/-- GLYPH_8: pattern 0x7F (R109). -/
def execGlyph8 (s : State) : Out := s.onEncoder (EncodeRun.stepGlyph 0x7F)

/-- GLYPH_9: pattern 0x6F (R110). -/
def execGlyph9 (s : State) : Out := s.onEncoder (EncodeRun.stepGlyph 0x6F)

end Sys2Proof.Machine
end

