-- ==== Sys2Proof/Machine/Init.lean ====
section
/-! DEFINITION. The initialise request of spec 44_display_router.md (R250). Its transactions are run by the
transactor, which hands each result back to the loop here. -/

namespace Sys2Proof.Machine

/-- `result <- first; return result`, the end of an initialise request (R250). -/
def State.finishInit (s : State) (first : Result) : State :=
  { s with fsm := .ready, caller := .requester }.returnResult first

/-- The loop of R250 over the items still to run, up to the next transaction, which is accepted, or to the end. -/
def State.runInit (first : Result) : List InitItem → State → State
  | [], s => s.finishInit first
  | .delay d :: rest, s => State.runInit first rest (s.emit (.delay d))
  | .transaction a bytes :: rest, s => { s with caller := .initialise first rest }.accept ⟨a, bytes⟩

/-- `if r ≠ SUCCESS and first = SUCCESS: first <- r` (R250). -/
def keepFirst (first r : Result) : Result := if r ≠ .success ∧ first = .success then r else first

/-- The loop of R250 after a transaction returned `r`. -/
def State.resumeInit (s : State) (first : Result) (rest : List InitItem) (r : Result) : State :=
  if r ≠ .success ∧ s.cfg.params.initStopOnError = true then s.finishInit (keepFirst first r)
  else State.runInit (keepFirst first r) rest s

/-- The three adapter events that begin an initialise request (R250). -/
def State.emitSetup (s : State) (busClockHz : Nat) : State :=
  ((s.emit (.adapterConfigure s.cfg.params.sysClockHz)).emit (.adapterSetFrequency busClockHz)).emit
    (.adapterEnable true)

/-- `INIT busClockHz` (R250). While the block accepts no request, the request is held (R241). -/
def execInit (busClockHz : Nat) (s : State) : Out :=
  if s.accepts then .next (State.runInit .success s.cfg.params.initSequence (s.emitSetup busClockHz))
  else .next (s.present (.init busClockHz))

end Sys2Proof.Machine
end

