-- ==== Sys2Proof/Machine/Letters.lean ====
section
/-! DEFINITION. The meanings of the letter rows: each places its rule's pattern in the next slot (R144, R146),
in either case (R131). -/

namespace Sys2Proof.Machine

/-- GLYPH_A: pattern 0x77 (R111). -/
def execGlyphA (_lower : Bool) (s : State) : Out := s.onEncoder (EncodeRun.stepGlyph 0x77)

/-- GLYPH_B: pattern 0x7C (R112). -/
def execGlyphB (_lower : Bool) (s : State) : Out := s.onEncoder (EncodeRun.stepGlyph 0x7C)

/-- GLYPH_C: pattern 0x39 (R113). -/
def execGlyphC (_lower : Bool) (s : State) : Out := s.onEncoder (EncodeRun.stepGlyph 0x39)

/-- GLYPH_D: pattern 0x5E (R114). -/
def execGlyphD (_lower : Bool) (s : State) : Out := s.onEncoder (EncodeRun.stepGlyph 0x5E)

/-- GLYPH_E: pattern 0x79 (R115). -/
def execGlyphE (_lower : Bool) (s : State) : Out := s.onEncoder (EncodeRun.stepGlyph 0x79)

/-- GLYPH_F: pattern 0x71 (R116). -/
def execGlyphF (_lower : Bool) (s : State) : Out := s.onEncoder (EncodeRun.stepGlyph 0x71)

/-- GLYPH_G: pattern 0x6F (R117). -/
def execGlyphG (_lower : Bool) (s : State) : Out := s.onEncoder (EncodeRun.stepGlyph 0x6F)

/-- GLYPH_H: pattern 0x76 (R118). -/
def execGlyphH (_lower : Bool) (s : State) : Out := s.onEncoder (EncodeRun.stepGlyph 0x76)

/-- GLYPH_I: pattern 0x06 (R119). -/
def execGlyphI (_lower : Bool) (s : State) : Out := s.onEncoder (EncodeRun.stepGlyph 0x06)

/-- GLYPH_J: pattern 0x0E (R120). -/
def execGlyphJ (_lower : Bool) (s : State) : Out := s.onEncoder (EncodeRun.stepGlyph 0x0E)

/-- GLYPH_L: pattern 0x38 (R121). -/
def execGlyphL (_lower : Bool) (s : State) : Out := s.onEncoder (EncodeRun.stepGlyph 0x38)

/-- GLYPH_N: pattern 0x54 (R122). -/
def execGlyphN (_lower : Bool) (s : State) : Out := s.onEncoder (EncodeRun.stepGlyph 0x54)

/-- GLYPH_O: pattern 0x3F (R123). -/
def execGlyphO (_lower : Bool) (s : State) : Out := s.onEncoder (EncodeRun.stepGlyph 0x3F)

/-- GLYPH_P: pattern 0x73 (R124). -/
def execGlyphP (_lower : Bool) (s : State) : Out := s.onEncoder (EncodeRun.stepGlyph 0x73)

/-- GLYPH_S: pattern 0x6D (R125). -/
def execGlyphS (_lower : Bool) (s : State) : Out := s.onEncoder (EncodeRun.stepGlyph 0x6D)

/-- GLYPH_T: pattern 0x78 (R126). -/
def execGlyphT (_lower : Bool) (s : State) : Out := s.onEncoder (EncodeRun.stepGlyph 0x78)

/-- GLYPH_U: pattern 0x3E (R127). -/
def execGlyphU (_lower : Bool) (s : State) : Out := s.onEncoder (EncodeRun.stepGlyph 0x3E)

/-- GLYPH_Y: pattern 0x6E (R128). -/
def execGlyphY (_lower : Bool) (s : State) : Out := s.onEncoder (EncodeRun.stepGlyph 0x6E)

end Sys2Proof.Machine
end

