-- ==== Sys2Proof/Machine/Punctuation.lean ====
section
/-! DEFINITION. The meanings of the punctuation rows and of the catch-all row. -/

namespace Sys2Proof.Machine

/-- PERIOD: sets the DP bit of the most recently placed slot (R142). -/
def execPeriod (s : State) : Out := s.onEncoder EncodeRun.stepPeriod

/-- COMMA: sets the comma bit of the most recently placed slot (R143). -/
def execComma (s : State) : Out := s.onEncoder (EncodeRun.stepComma s.cfg.params)

/-- INVALID: the character is skipped, whichever it is (R132, R145). -/
def execInvalid (_c : Byte) (s : State) : Out := s.onEncoder EncodeRun.stepInvalid

end Sys2Proof.Machine
end

