-- ==== Sys2Proof/Machine/Framing.lean ====
section
/-! DEFINITION. The framing functions of spec 42_device_framing.md. -/

namespace Sys2Proof.Machine

/-- What a framing function yields: a descriptor, or `InvalidArgument`. -/
inductive Framed where
  | descriptor (d : Descriptor)
  | invalidArgument
  deriving DecidableEq, Repr

/-- `SmallFamilyFrame(index, frame[0..4])` (R170), its range check first (R171). -/
def smallFamilyFrame (p : Params) (index : Nat) (frame : List Byte) : Framed :=
  if 2 < index then .invalidArgument
  else .descriptor ⟨p.smallAddr, [p.resetDataPointer, deviceSelect index] ++ frame.take 5⟩

/-- `LargeFamilyFrame(line, frame[0..7])` (R172), its range check first (R173). Byte 7 is never sent. -/
def largeFamilyFrame (p : Params) (line : Nat) (frame : List Byte) : Framed :=
  if 1 < line then .invalidArgument
  else .descriptor ⟨p.largeAddr,
    [p.commandFlag, p.lineDevAddr line, p.commandFlag, p.dataPointerZero, p.dataFlag] ++ frame.take 7 ++
      [p.paddingByte]⟩

/-- The framing call of a family (R242). -/
def frameFor (p : Params) (f : Family) (unit : Nat) (frame : List Byte) : Framed :=
  match f with
  | .small => smallFamilyFrame p unit frame
  | .large => largeFamilyFrame p unit frame

end Sys2Proof.Machine
end

