-- ==== Sys2Proof/Machine/Router.lean ====
section
/-! DEFINITION. The write requests of spec 44_display_router.md. -/

namespace Sys2Proof.Machine

/-- The routing table (R243), none for the reserved identifiers (R72). -/
def route (id : DisplayId) : Option (Family × Nat) :=
  match id.toNat with
  | 0 => some (.large, 0)
  | 1 => some (.large, 1)
  | 2 => some (.small, 0)
  | 3 => some (.small, 1)
  | 4 => some (.small, 2)
  | _ => none

/-- The end of a write's step: framing, then accept, or the framing's argument check (R242). -/
def State.submitFrame (s : State) (f : Family) (unit : Nat) (frame : List Byte) : State :=
  match frameFor s.cfg.params f unit frame with
  | .invalidArgument => s.returnResult (.error .invalidArgument)
  | .descriptor d => { s with caller := .requester }.accept d

/-- `write(id, t)`, one atomic step (R242). While the block accepts no request, the request is held (R241). A text
longer than `TEXT_MAX` is no request (R73, I17), which a reserved identifier does not get as far as asking (R249). -/
def State.writeRequest (s : State) (id : DisplayId) (text : List Byte) : Out :=
  if s.accepts then
    match route id with
    | none => .next (s.returnResult (.error .invalidArgument))
    | some (f, unit) =>
      if s.cfg.params.admitsText text then .next (s.submitFrame f unit (encodeText s.cfg.params text f))
      else .refused .textTooLong
  else .next (s.present (.write id text))

/-- `WRITE LARGE0, text` (R244). -/
def execWriteLarge0 (text : List Byte) (s : State) : Out := s.writeRequest 0 text

/-- `WRITE LARGE1, text` (R245). -/
def execWriteLarge1 (text : List Byte) (s : State) : Out := s.writeRequest 1 text

/-- `WRITE SMALL0, text` (R246). -/
def execWriteSmall0 (text : List Byte) (s : State) : Out := s.writeRequest 2 text

/-- `WRITE SMALL1, text` (R247). -/
def execWriteSmall1 (text : List Byte) (s : State) : Out := s.writeRequest 3 text

/-- `WRITE SMALL2, text` (R248). -/
def execWriteSmall2 (text : List Byte) (s : State) : Out := s.writeRequest 4 text

/-- `WRITE ID5, text` (R249). -/
def execWriteId5 (text : List Byte) (s : State) : Out := s.writeRequest 5 text

/-- `WRITE ID6, text` (R249). -/
def execWriteId6 (text : List Byte) (s : State) : Out := s.writeRequest 6 text

/-- `WRITE ID7, text` (R249). -/
def execWriteId7 (text : List Byte) (s : State) : Out := s.writeRequest 7 text

/-! ### The write seen step by step (log entry 6) -/

/-- The first part of a write's step: the encode starts (R242, R141). -/
def State.beginEncode (s : State) (f : Family) (unit : Nat) (text : List Byte) : State :=
  { s with encoding := some (EncodeRun.start f unit text) }

/-- The last part of a write's step: the encode has ended (R147), its frame is framed and accepted. -/
def State.finishEncode (s : State) (e : EncodeRun) : State :=
  { s with encoding := none }.submitFrame e.family e.unit e.frame

end Sys2Proof.Machine
end

