-- ==== Sys2Proof/Machine/Symbols.lean ====
section
/-! DEFINITION. The meanings of the space and hyphen rows: each places its rule's pattern in the next slot (R144, R146). -/

namespace Sys2Proof.Machine

/-- GLYPH_SPACE: pattern 0x00, which takes a slot and shows blank (R129). -/
def execGlyphSpace (s : State) : Out := s.onEncoder (EncodeRun.stepGlyph 0x00)

/-- GLYPH_HYPHEN: pattern 0x40 (R130). -/
def execGlyphHyphen (s : State) : Out := s.onEncoder (EncodeRun.stepGlyph 0x40)

end Sys2Proof.Machine
end

