-- ==== Sys2Proof/Machine/Dispatch.lean ====
section
/-! DEFINITION. The dispatch: one arm for each instruction. -/

namespace Sys2Proof.Machine

def exec (i : Instr) (s : State) : Host.Outcome State Fault Refusal :=
  match i with
  | .period => Sys2Proof.Machine.execPeriod s
  | .comma => Sys2Proof.Machine.execComma s
  | .glyph0 => Sys2Proof.Machine.execGlyph0 s
  | .glyph1 => Sys2Proof.Machine.execGlyph1 s
  | .glyph2 => Sys2Proof.Machine.execGlyph2 s
  | .glyph3 => Sys2Proof.Machine.execGlyph3 s
  | .glyph4 => Sys2Proof.Machine.execGlyph4 s
  | .glyph5 => Sys2Proof.Machine.execGlyph5 s
  | .glyph6 => Sys2Proof.Machine.execGlyph6 s
  | .glyph7 => Sys2Proof.Machine.execGlyph7 s
  | .glyph8 => Sys2Proof.Machine.execGlyph8 s
  | .glyph9 => Sys2Proof.Machine.execGlyph9 s
  | .glyphA lower => Sys2Proof.Machine.execGlyphA lower s
  | .glyphB lower => Sys2Proof.Machine.execGlyphB lower s
  | .glyphC lower => Sys2Proof.Machine.execGlyphC lower s
  | .glyphD lower => Sys2Proof.Machine.execGlyphD lower s
  | .glyphE lower => Sys2Proof.Machine.execGlyphE lower s
  | .glyphF lower => Sys2Proof.Machine.execGlyphF lower s
  | .glyphG lower => Sys2Proof.Machine.execGlyphG lower s
  | .glyphH lower => Sys2Proof.Machine.execGlyphH lower s
  | .glyphI lower => Sys2Proof.Machine.execGlyphI lower s
  | .glyphJ lower => Sys2Proof.Machine.execGlyphJ lower s
  | .glyphL lower => Sys2Proof.Machine.execGlyphL lower s
  | .glyphN lower => Sys2Proof.Machine.execGlyphN lower s
  | .glyphO lower => Sys2Proof.Machine.execGlyphO lower s
  | .glyphP lower => Sys2Proof.Machine.execGlyphP lower s
  | .glyphS lower => Sys2Proof.Machine.execGlyphS lower s
  | .glyphT lower => Sys2Proof.Machine.execGlyphT lower s
  | .glyphU lower => Sys2Proof.Machine.execGlyphU lower s
  | .glyphY lower => Sys2Proof.Machine.execGlyphY lower s
  | .glyphSpace => Sys2Proof.Machine.execGlyphSpace s
  | .glyphHyphen => Sys2Proof.Machine.execGlyphHyphen s
  | .invalid c => Sys2Proof.Machine.execInvalid c s
  | .writeLarge0 text => Sys2Proof.Machine.execWriteLarge0 text s
  | .writeLarge1 text => Sys2Proof.Machine.execWriteLarge1 text s
  | .writeSmall0 text => Sys2Proof.Machine.execWriteSmall0 text s
  | .writeSmall1 text => Sys2Proof.Machine.execWriteSmall1 text s
  | .writeSmall2 text => Sys2Proof.Machine.execWriteSmall2 text s
  | .writeId5 text => Sys2Proof.Machine.execWriteId5 text s
  | .writeId6 text => Sys2Proof.Machine.execWriteId6 text s
  | .writeId7 text => Sys2Proof.Machine.execWriteId7 text s
  | .init busClockHz => Sys2Proof.Machine.execInit busClockHz s

end Sys2Proof.Machine
end

