-- ==== Sys2Proof/Machine/Transactor.lean ====
section
/-! DEFINITION. The bus transactor of spec 43_bus_transactor.md: one definition for each step rule. -/

namespace Sys2Proof.Machine

/-- Idle check (R193). -/
def State.stepIdle (s : State) : Out :=
  .next (s.sampled.setFsm (if s.answer .busIdle then .startingIssue else .recovering))

/-- The events of a recovery iteration, and the count of forced stops (R194). -/
def State.forceStop (s : State) : State :=
  { (s.emit .forcedStop).emit (.delay s.cfg.params.recoveryDelay) with rcount := s.rcount + 1 }

/-- `RECOVERY_LIMIT ≠ none and rcount >= RECOVERY_LIMIT` (R194). -/
def State.recoveryExhausted (s : State) : Bool :=
  match s.cfg.params.recoveryLimit with
  | none => false
  | some limit => decide (limit ≤ s.rcount)

/-- The sample of a recovery iteration, and where it leads (R194). -/
def State.recoverySample (s : State) : State :=
  if s.answer .busIdle then s.sampled.setFsm .startingIssue
  else if s.recoveryExhausted then s.sampled.timeout
  else s.sampled

/-- Recovery iteration (R194). `rcount` is "read only when a bound is set" (R273). -/
def State.stepRecovering (s : State) : Out :=
  match s.cfg.params.recoveryLimit with
  | none => .next s.forceStop.recoverySample
  | some _ => s.reading (.next s.forceStop.recoverySample)

/-- Start issue (R195). -/
def State.stepStartIssue (s : State) : Out :=
  .next ({ s.emit .start with wcount := 0 }.setFsm .startingWaitStart)

/-- Start result (R196). -/
def State.stepStartResult (s : State) : Out :=
  s.wait .startDone
    (fun s => .next (
      if s.answer .startOk then s.sampled.setFsm .addressWaitReady
      else s.sampled.raiseAbort .busStartFailure false))
    State.timeout

/-- Address send (R198). -/
def State.stepAddressSend (s : State) : Out :=
  s.wait .txReady
    (fun s => s.reading (.next ((s.emit (.send (addressByte s.addr7))).setFsm .addressWaitComplete)))
    State.timeout

/-- Address acknowledgment (R199). -/
def State.stepAddressAck (s : State) : Out :=
  s.wait .txComplete
    (fun s =>
      if s.answer .ack then
        s.reading (.next (
          if 0 < s.n then { s.sampled with i := 0 }.setFsm .dataWaitReady
          else s.sampled.setFsm .stoppingIssue))
      else .next (s.sampled.raiseAbort .addressNackFailure s.cfg.params.stopOnAddrNack))
    State.timeout

/-- Runs the send of the byte `buf[i]`, which fires with `0 ≤ i < n` (R200). -/
def State.withDataByte (s : State) (k : Byte → Out) : Out :=
  s.reading (
    if s.i < s.n then
      match s.buf[s.i]? with
      | some b => k b
      | none => .fault .dataIndex
    else .fault .dataIndex)

/-- Data send (R200). -/
def State.stepDataSend (s : State) : Out :=
  s.withDataByte (fun b => s.wait .txReady
    (fun s => .next ((s.emit (.send b)).setFsm .dataWaitComplete))
    State.timeout)

/-- Data acknowledgment (R201), the error's index being that of the byte just sent (R206). -/
def State.stepDataAck (s : State) : Out :=
  s.wait .txComplete
    (fun s => s.reading (.next (
      if s.answer .ack then
        { s.sampled with i := s.i + 1 }.setFsm (if s.i + 1 < s.n then .dataWaitReady else .stoppingIssue)
      else s.sampled.raiseAbort (.dataNackFailure (BitVec.ofNat 8 s.i)) s.cfg.params.stopOnDataNack)))
    State.timeout

/-- Stop issue (R202). -/
def State.stepStopIssue (s : State) : Out :=
  .next ({ s.emit .stop with wcount := 0 }.setFsm .stoppingWaitStop)

/-- Stop completion (R203). -/
def State.stepStopWait (s : State) : Out :=
  s.wait .stopComplete (fun s => .next (s.setFsm .done)) State.timeout

/-- Abort stop issue (R204). -/
def State.stepAbortStopIssue (s : State) : Out :=
  .next ({ s.emit .stop with wcount := 0 }.setFsm .abortStoppingWaitStop)

/-- Abort stop completion: a timeout here keeps the first error (R205). -/
def State.stepAbortStopWait (s : State) : Out :=
  s.wait .stopComplete (fun s => .next (s.setFsm .aborted)) State.timeoutKeepingErr

/-- The end of a transaction: `result <- r`, back to READY, and `r` returned to whoever ran the transaction, the
requester (R207, R208) or the loop of an initialise request (R250, log entry 17). -/
def State.endTransaction (s : State) (r : Result) : State :=
  match s.caller with
  | .requester => (s.returnResult r).setFsm .ready
  | .initialise first rest => ({ s with result := r }.setFsm .ready).resumeInit first rest r

/-- Done (R207). -/
def State.stepDone (s : State) : Out := .next (s.endTransaction .success)

/-- Aborted: the return from an abort (R208, R269). A fault where no abort has written `err` since reset (R29). -/
def State.stepAborted (s : State) : Out :=
  if s.errLatched then .next (s.endTransaction (.error s.err)) else .fault .unspecifiedRead

/-- The transactor's step in each state of `fsm`. READY has none (R212). -/
def State.transactorStep (s : State) : Out :=
  match s.fsm with
  | .ready => .refused .quiescent
  | .idle => s.stepIdle
  | .recovering => s.stepRecovering
  | .startingIssue => s.stepStartIssue
  | .startingWaitStart => s.stepStartResult
  | .addressWaitReady => s.stepAddressSend
  | .addressWaitComplete => s.stepAddressAck
  | .dataWaitReady => s.stepDataSend
  | .dataWaitComplete => s.stepDataAck
  | .stoppingIssue => s.stepStopIssue
  | .stoppingWaitStop => s.stepStopWait
  | .abortStoppingIssue => s.stepAbortStopIssue
  | .abortStoppingWaitStop => s.stepAbortStopWait
  | .done => s.stepDone
  | .aborted => s.stepAborted

end Sys2Proof.Machine
end

