-- ==== Sys2Proof/Machine/Fetch.lean ====
section
/-! DEFINITION. What the block runs next: a character of the encode under way, a held request, or a transactor step. -/

namespace Sys2Proof.Machine

/-- A step inside an encode: the instruction of the character at `scan` (R140), or the end of the scan (R147). -/
def State.encodeStep (s : State) (e : EncodeRun) : Out :=
  match e.nextChar with
  | some c => exec (decode (.char c)) s
  | none => .next (s.finishEncode e)

/-- A step in READY: one held request is accepted (R241). With none held READY has no step (R212). -/
def State.readyStep (s : State) : Out :=
  match s.takeHeld with
  | some (r, s') => exec (decode (.request r)) s'
  | none => .refused .quiescent

/-- A step with reset not asserted. -/
def State.runStep (s : State) : Out :=
  match s.encoding with
  | some e => s.encodeStep e
  | none => if s.fsm = .ready then s.readyStep else s.transactorStep

/-- `s` with character `c` as the one the encoder reads next: the last one of the encode under way, or the only one
of a fresh SmallFamily encode. -/
def State.withChar (s : State) (c : Byte) : State :=
  match s.encoding with
  | some e => { s with encoding := some { e with text := [c], scan := 0, halted := false } }
  | none => { s with encoding := some (EncodeRun.start .small 0 [c]) }

/-- `s` ready to accept request `r`, the only one held. -/
def State.withRequest (s : State) (r : Request) : State :=
  { s with fsm := .ready, encoding := none, held := [r] }

/-- `s` with a code where the next step fetches it. -/
def State.withCode (s : State) : Code → State
  | .char c => { s with resetAsserted := false }.withChar c
  | .request r => { s with resetAsserted := false }.withRequest r

end Sys2Proof.Machine
end

