-- ==== Sys2Proof/Machine/Step.lean ====
section
/-! DEFINITION. One step of the block, and the placing of an instruction where the next step fetches it. -/

namespace Sys2Proof.Machine

/-- One step: reset where it is asserted (R291), else the next character, request or transactor step. -/
def step (s : State) : Host.Outcome State Fault Refusal :=
  if s.resetAsserted then .next s.applyReset else s.runStep

/-- `s` with the instruction of a table word placed where the next step fetches it. -/
def State.withFetchWord (s : State) (nbits w : Nat) : State :=
  match codeOfTableWord nbits w with
  | some c => s.withCode c
  | none => s

end Sys2Proof.Machine
end

