-- ==== Sys2Proof/Machine/Mux.lean ====
section
/-! DEFINITION. The mux view of the encoder (R148): each slot of the frame computed by itself from the positions of
the glyphs in the text. No step uses it. R148 asks that it give the frame of `encodeText` for every text. -/

namespace Sys2Proof.Machine

/-- The pattern of the glyph at text index `q`, if the character there is a glyph. -/
def glyphAt (t : List Byte) (q : Nat) : Option Pattern :=
  match t[q]? with
  | some c => match classOf c with
    | .glyph p => some p
    | .period | .comma | .invalid => none
  | none => none

/-- The text indices `q_1 > q_2 > …` of the glyphs, taken right to left (R148). -/
def glyphIndices (t : List Byte) : List Nat :=
  (List.range t.length).reverse.filter (fun q => (glyphAt t q).isSome)

/-- The least index above `q_{m+1}`, or 0 when there are fewer than `m + 1` glyphs (R148). -/
def markFloor (t : List Byte) (m : Nat) : Nat :=
  match (glyphIndices t)[m]? with
  | some q => q + 1
  | none => 0

/-- "some index `p` with `q_{m+1} < p < q_m`" holds character `c`, where `q_m` exists (R148). -/
def marked (t : List Byte) (c : Byte) (m : Nat) : Bool :=
  match (glyphIndices t)[m - 1]? with
  | some q => (List.range t.length).any (fun p => decide (markFloor t m ≤ p) && decide (p < q) && t[p]? == some c)
  | none => false

/-- The digit byte of slot `cap(f) − m` (R148). -/
def muxDigit (t : List Byte) (m : Nat) : Byte :=
  (match (glyphIndices t)[m - 1]? with
    | some q => match glyphAt t q with
      | some p => segmentCode p
      | none => 0x00
    | none => 0x00) ||| (if marked t 0x2E m then dpFlag else 0x00)

/-- The comma byte: the flags of the slots `cap(f) − m` that a comma marks (R148). -/
def muxComma (p : Params) (t : List Byte) (f : Family) : Byte :=
  (List.range f.cap).foldl
    (fun b k => if marked t 0x2C (f.cap - k) then b ||| commaFlag p f k else b) 0x00

/-- The frame by the mux view: the digit bytes from slot 0, the comma byte, and zeros to the family's length. -/
def muxFrame (p : Params) (t : List Byte) (f : Family) : List Byte :=
  (List.range f.cap).map (fun k => muxDigit t (f.cap - k)) ++ [muxComma p t f] ++
    List.replicate (f.len - f.cap - 1) 0x00

end Sys2Proof.Machine
end

