-- ==== Sys2Proof/Safety.lean ====
section
/-! DEFINITION. The terms claims about runs are made in: running several steps, the invariant of the states that reset
leads to, and the shape of the bus trace of one transaction (R210). -/

namespace Sys2Proof.Machine

/-- `k` steps, stopping at the first fault or refusal. -/
def runSteps : Nat → State → Out
  | 0, s => .next s
  | k + 1, s =>
    match step s with
    | .next t => runSteps k t
    | .fault r => .fault r
    | .refused r => .refused r

/-- The working state of an encode is one that its loop builds (R22): the frame has its family's length, the cursor is
a slot or the sentinel, the scan is in −1..L−1, and no slot left of the cursor holds anything (R144, R149). -/
structure EncodeRun.Wf (e : EncodeRun) : Prop where
  unit_lt : e.unit < e.family.units
  frame_len : e.frame.length = e.family.len
  cursor_le : e.cursor ≤ e.family.cap
  scan_ge : -1 ≤ e.scan
  scan_lt : e.scan < e.text.length
  unplaced : ∀ k, k < e.cursor → e.frame[k]? = some 0x00

/-- `fsm` is in a state that waits for a signal by the wait primitive (R191). -/
def Fsm.waits : Fsm → Bool
  | .startingWaitStart | .addressWaitReady | .addressWaitComplete | .dataWaitReady | .dataWaitComplete
  | .stoppingWaitStop | .abortStoppingWaitStop => true
  | .ready | .idle | .recovering | .startingIssue | .stoppingIssue | .abortStoppingIssue | .done | .aborted => false

/-- The invariant: what holds of every state that reset leads to. -/
structure State.Inv (s : State) : Prop where
  /-- `buf` has 13 bytes (R26). -/
  buf_len : s.buf.length = bufLen
  /-- `n` is in 0..13 (R26). -/
  n_le : s.n ≤ bufLen
  /-- `i` is at most `n` (R192, R201). After reset this rests on the zeros of log entry 2. -/
  i_le : s.i ≤ s.n
  /-- A data step has a byte to send (R200). -/
  data_lt : s.fsm.phase = .data → s.i < s.n
  /-- A transaction's registers have been written (R29). -/
  busy_latched : s.busy = true → s.latched = true
  /-- An abort has its error (R268), which is none of the front end's (R267). -/
  abort_err : s.fsm.phase = .aborted ∨ s.fsm.phase = .abortStopping →
    s.errLatched = true ∧ s.err ≠ .invalidArgument
  /-- No forced stop has been issued at the first idle check (R192, R193). -/
  idle_fresh : s.fsm = .idle → s.rcount = 0
  /-- The recovery loop is within its bound (R194). -/
  recovery_lt : ∀ k, s.cfg.params.recoveryLimit = some k → s.fsm = .recovering → s.rcount < k
  /-- A wait is within its bound (R191). -/
  wait_lt : ∀ k, s.cfg.params.waitLimit = some k → s.fsm.waits = true → s.wcount < k
  /-- An encode is under way only in READY, and its working state is well-formed (R22, R242). -/
  encode_wf : ∀ e, s.encoding = some e → s.fsm = .ready ∧ e.Wf
  /-- In READY no initialise request is under way (R250). -/
  ready_caller : s.fsm = .ready → s.caller = .requester
  /-- A transaction's address is one of the block's two (R43). -/
  addr_used : s.latched = true → s.cfg.params.usesAddr s.addr7 = true
  /-- What an initialise request still has to run goes to those addresses and fits `buf` (R26, R43). -/
  init_admitted : ∀ first rest, s.caller = .initialise first rest → rest.all s.cfg.params.admitsItem = true

/-- `(ForcedStop, Delay(d))^r` (R210). -/
def recoveryEvents (d : Nat) : Nat → List Event
  | 0 => []
  | r + 1 => recoveryEvents d r ++ [.forcedStop, .delay d]

/-- `Send(b)` for each byte. -/
def sends (bytes : List Byte) : List Event := bytes.map Event.send

/-- `Start, Send(addr7 << 1)` and the first `k` data bytes. -/
def sentUpTo (s : State) (k : Nat) : List Event :=
  [.start, .send (addressByte s.addr7)] ++ sends (s.buf.take k)

/-- What a transaction has emitted after its recovery, by its state (R210). A timeout has emitted some prefix of a
success. -/
def txEvents (s : State) (es : List Event) : Prop :=
  match s.fsm with
  | .ready => False
  | .idle | .recovering | .startingIssue => es = []
  | .startingWaitStart | .addressWaitReady => es = [.start]
  | .addressWaitComplete => es = sentUpTo s 0
  | .dataWaitReady => es = sentUpTo s s.i
  | .dataWaitComplete => es = sentUpTo s (s.i + 1)
  | .stoppingIssue => es = sentUpTo s s.n
  | .stoppingWaitStop | .done => es = sentUpTo s s.n ++ [.stop]
  | .abortStoppingIssue =>
    (s.err = .addressNackFailure ∧ s.cfg.params.stopOnAddrNack = true ∧ es = sentUpTo s 0) ∨
    (s.err = .dataNackFailure (BitVec.ofNat 8 s.i) ∧ s.cfg.params.stopOnDataNack = true ∧ s.i < s.n ∧
      es = sentUpTo s (s.i + 1))
  | .abortStoppingWaitStop =>
    (s.err = .addressNackFailure ∧ s.cfg.params.stopOnAddrNack = true ∧ es = sentUpTo s 0 ++ [.stop]) ∨
    (s.err = .dataNackFailure (BitVec.ofNat 8 s.i) ∧ s.cfg.params.stopOnDataNack = true ∧ s.i < s.n ∧
      es = sentUpTo s (s.i + 1) ++ [.stop])
  | .aborted =>
    (s.err = .busStartFailure ∧ es = [.start]) ∨
    (s.err = .addressNackFailure ∧
      es = sentUpTo s 0 ++ (if s.cfg.params.stopOnAddrNack = true then [.stop] else [])) ∨
    (s.err = .dataNackFailure (BitVec.ofNat 8 s.i) ∧ s.i < s.n ∧
      es = sentUpTo s (s.i + 1) ++ (if s.cfg.params.stopOnDataNack = true then [.stop] else [])) ∨
    (s.err = .timeoutError ∧ es <+: sentUpTo s s.n ++ [.stop] ∧
      (es = [] → ∃ k, s.cfg.params.recoveryLimit = some k ∧ s.rcount = k))

/-- The trace of a transaction that was accepted when the trace was `before` (R210), after `rcount` recovery
iterations. -/
def TxTrace (before : List Event) (s : State) : Prop :=
  ∃ es, txEvents s es ∧ s.trace = before ++ recoveryEvents s.cfg.params.recoveryDelay s.rcount ++ es

end Sys2Proof.Machine
end

