-- ==== Sys2Proof/Certificates/Slice0/Obligations.lean ====
section
/-! DEFINITION. The statements for the provers. `RomEntry`, `Places`, `Quiet`, `FalseWait`, `WaitsFor`,
`ReadsRegisters` and `SameTransaction` are their shared shapes. A statement whose docstring names a log entry rests on that choice of the model. -/

open Sys2Proof Sys2Proof.Machine

namespace Sys2Proof.Certificates

/-- An entry rule of the ROM (R101 to R130): its word, its pattern, its code, its row, the pattern bits that are 1, and
the SmallFamily frame of the one-character text. -/
def RomEntry (c : Byte) (i : Instr) (p : Pattern) (word code : Byte) (lit : List Nat) : Prop :=
  romWord c = word ∧ codeFor c = some p ∧ segmentCode p = code ∧ decode (.char c) = i ∧
  (List.range 7).filter (fun j => p.getLsbD j) = lit ∧
  ∀ prm : Params, encodeText prm [c] .small = [0x00, 0x00, 0x00, code, 0x00]

/-- An instruction that places pattern `p` (R144), or halts the scan when no slot is left (R146), and moves the scan on
(R140), wherever an encode has a character left to read. Nothing else of the state changes. -/
def Places (i : Instr) (p : Pattern) : Prop :=
  ∀ (s : State) (e : EncodeRun), s.encoding = some e → e.nextChar.isSome = true →
    exec i s = .next { s with encoding := some (
      if e.cursor = 0 then { e with halted := true, scan := e.scan - 1 }
      else { e with
        cursor := e.cursor - 1
        frame := e.frame.modify (e.cursor - 1) (fun b => b ||| (p.setWidth 8 <<< 1))
        scan := e.scan - 1 }) }

/-- No reset is asserted and no encode is under way, so that the next step is the transactor's or READY's. -/
def Quiet (s : State) : Prop := s.resetAsserted = false ∧ s.encoding = none

/-- What a wait does on a false sample (R191): with no limit only the model's inputs move, with one the poll is counted,
and at the limit the transaction aborts with TIMEOUT_ERROR and no Stop. -/
def FalseWait (s : State) : Prop :=
  (s.cfg.params.waitLimit = none → step s = .next s.sampled) ∧
  (∀ k, s.cfg.params.waitLimit = some k → s.wcount + 1 < k →
    step s = .next { s.sampled with wcount := s.wcount + 1 }) ∧
  (∀ k, s.cfg.params.waitLimit = some k → k ≤ s.wcount + 1 →
    step s = .next { s.sampled with
      wcount := s.wcount + 1, err := .timeoutError, errLatched := true, fsm := .aborted })

/-- `s` waits for `sig` by the wait primitive (R191). -/
def WaitsFor (s : State) (sig : Signal) : Prop :=
  (s.fsm = .startingWaitStart ∧ sig = .startDone) ∨ (s.fsm = .addressWaitReady ∧ sig = .txReady) ∨
  (s.fsm = .addressWaitComplete ∧ sig = .txComplete) ∨ (s.fsm = .dataWaitReady ∧ sig = .txReady) ∨
  (s.fsm = .dataWaitComplete ∧ sig = .txComplete) ∨ (s.fsm = .stoppingWaitStop ∧ sig = .stopComplete) ∨
  (s.fsm = .abortStoppingWaitStop ∧ sig = .stopComplete)

/-- The transactor's step in `s` reads one of `addr7`, `buf`, `n`, `i`, `rcount` and `wcount`, by its rule's pseudocode
(R191, R194, R198 to R201). The two counters are "read only when a bound is set" (R273), and R200 fires with `i < n`. -/
def ReadsRegisters (s : State) : Prop :=
  (s.fsm = .recovering ∧ s.cfg.params.recoveryLimit ≠ none) ∨
  (s.fsm = .addressWaitReady ∧ s.answer .txReady = true) ∨
  (s.fsm = .addressWaitComplete ∧ s.answer .txComplete = true ∧ s.sampled.answer .ack = true) ∨
  s.fsm = .dataWaitReady ∨
  (s.fsm = .dataWaitComplete ∧ s.answer .txComplete = true) ∨
  (∃ sig, WaitsFor s sig ∧ s.answer sig = false ∧ s.cfg.params.waitLimit ≠ none)

/-- What a transaction never writes: the parameters, the descriptor, and what belongs to other requests. -/
def SameTransaction (s t : State) : Prop :=
  t.cfg = s.cfg ∧ t.addr7 = s.addr7 ∧ t.buf = s.buf ∧ t.n = s.n ∧ t.encoding = none ∧ t.held = s.held ∧
  t.latched = s.latched ∧ t.resetAsserted = false

/-- A state in `(READY, –)` with no encode under way: the block accepts a request (R240). -/
def Accepting (s : State) : Prop := s.fsm = .ready ∧ s.encoding = none

end Sys2Proof.Certificates

open Sys2Proof.Certificates

/-! ### The character ROM and the encodings -/

/-- R101 to R110. The entries of the digits. -/
def Obligations.DigitRomEntries : Prop :=
  RomEntry 0x30 .glyph0 0x3F 0xBF 0x7E [0, 1, 2, 3, 4, 5] ∧
  RomEntry 0x31 .glyph1 0x06 0x86 0x0C [1, 2] ∧
  RomEntry 0x32 .glyph2 0x5B 0xDB 0xB6 [0, 1, 3, 4, 6] ∧
  RomEntry 0x33 .glyph3 0x4F 0xCF 0x9E [0, 1, 2, 3, 6] ∧
  RomEntry 0x34 .glyph4 0x66 0xE6 0xCC [1, 2, 5, 6] ∧
  RomEntry 0x35 .glyph5 0x6D 0xED 0xDA [0, 2, 3, 5, 6] ∧
  RomEntry 0x36 .glyph6 0x7D 0xFD 0xFA [0, 2, 3, 4, 5, 6] ∧
  RomEntry 0x37 .glyph7 0x07 0x87 0x0E [0, 1, 2] ∧
  RomEntry 0x38 .glyph8 0x7F 0xFF 0xFE [0, 1, 2, 3, 4, 5, 6] ∧
  RomEntry 0x39 .glyph9 0x6F 0xEF 0xDE [0, 1, 2, 3, 5, 6] ∧
  codeFor 0x30 = codeFor 0x4F ∧
  codeFor 0x31 = codeFor 0x49 ∧
  codeFor 0x35 = codeFor 0x53 ∧
  codeFor 0x39 = codeFor 0x47

/-- R111 to R120. The entries of the letters A to J, in both cases. -/
def Obligations.LetterRomEntriesAToJ : Prop :=
  RomEntry 0x41 (.glyphA false) 0x77 0xF7 0xEE [0, 1, 2, 4, 5, 6] ∧
  RomEntry 0x61 (.glyphA true) 0x77 0xF7 0xEE [0, 1, 2, 4, 5, 6] ∧
  RomEntry 0x42 (.glyphB false) 0x7C 0xFC 0xF8 [2, 3, 4, 5, 6] ∧
  RomEntry 0x62 (.glyphB true) 0x7C 0xFC 0xF8 [2, 3, 4, 5, 6] ∧
  RomEntry 0x43 (.glyphC false) 0x39 0xB9 0x72 [0, 3, 4, 5] ∧
  RomEntry 0x63 (.glyphC true) 0x39 0xB9 0x72 [0, 3, 4, 5] ∧
  RomEntry 0x44 (.glyphD false) 0x5E 0xDE 0xBC [1, 2, 3, 4, 6] ∧
  RomEntry 0x64 (.glyphD true) 0x5E 0xDE 0xBC [1, 2, 3, 4, 6] ∧
  RomEntry 0x45 (.glyphE false) 0x79 0xF9 0xF2 [0, 3, 4, 5, 6] ∧
  RomEntry 0x65 (.glyphE true) 0x79 0xF9 0xF2 [0, 3, 4, 5, 6] ∧
  RomEntry 0x46 (.glyphF false) 0x71 0xF1 0xE2 [0, 4, 5, 6] ∧
  RomEntry 0x66 (.glyphF true) 0x71 0xF1 0xE2 [0, 4, 5, 6] ∧
  RomEntry 0x47 (.glyphG false) 0x6F 0xEF 0xDE [0, 1, 2, 3, 5, 6] ∧
  RomEntry 0x67 (.glyphG true) 0x6F 0xEF 0xDE [0, 1, 2, 3, 5, 6] ∧
  RomEntry 0x48 (.glyphH false) 0x76 0xF6 0xEC [1, 2, 4, 5, 6] ∧
  RomEntry 0x68 (.glyphH true) 0x76 0xF6 0xEC [1, 2, 4, 5, 6] ∧
  RomEntry 0x49 (.glyphI false) 0x06 0x86 0x0C [1, 2] ∧
  RomEntry 0x69 (.glyphI true) 0x06 0x86 0x0C [1, 2] ∧
  RomEntry 0x4A (.glyphJ false) 0x0E 0x8E 0x1C [1, 2, 3] ∧
  RomEntry 0x6A (.glyphJ true) 0x0E 0x8E 0x1C [1, 2, 3] ∧
  codeFor 0x47 = codeFor 0x39 ∧
  codeFor 0x49 = codeFor 0x31

/-- R121 to R128. The entries of the letters L to Y, in both cases. -/
def Obligations.LetterRomEntriesLToY : Prop :=
  RomEntry 0x4C (.glyphL false) 0x38 0xB8 0x70 [3, 4, 5] ∧
  RomEntry 0x6C (.glyphL true) 0x38 0xB8 0x70 [3, 4, 5] ∧
  RomEntry 0x4E (.glyphN false) 0x54 0xD4 0xA8 [2, 4, 6] ∧
  RomEntry 0x6E (.glyphN true) 0x54 0xD4 0xA8 [2, 4, 6] ∧
  RomEntry 0x4F (.glyphO false) 0x3F 0xBF 0x7E [0, 1, 2, 3, 4, 5] ∧
  RomEntry 0x6F (.glyphO true) 0x3F 0xBF 0x7E [0, 1, 2, 3, 4, 5] ∧
  RomEntry 0x50 (.glyphP false) 0x73 0xF3 0xE6 [0, 1, 4, 5, 6] ∧
  RomEntry 0x70 (.glyphP true) 0x73 0xF3 0xE6 [0, 1, 4, 5, 6] ∧
  RomEntry 0x53 (.glyphS false) 0x6D 0xED 0xDA [0, 2, 3, 5, 6] ∧
  RomEntry 0x73 (.glyphS true) 0x6D 0xED 0xDA [0, 2, 3, 5, 6] ∧
  RomEntry 0x54 (.glyphT false) 0x78 0xF8 0xF0 [3, 4, 5, 6] ∧
  RomEntry 0x74 (.glyphT true) 0x78 0xF8 0xF0 [3, 4, 5, 6] ∧
  RomEntry 0x55 (.glyphU false) 0x3E 0xBE 0x7C [1, 2, 3, 4, 5] ∧
  RomEntry 0x75 (.glyphU true) 0x3E 0xBE 0x7C [1, 2, 3, 4, 5] ∧
  RomEntry 0x59 (.glyphY false) 0x6E 0xEE 0xDC [1, 2, 3, 5, 6] ∧
  RomEntry 0x79 (.glyphY true) 0x6E 0xEE 0xDC [1, 2, 3, 5, 6] ∧
  codeFor 0x4F = codeFor 0x30 ∧
  codeFor 0x53 = codeFor 0x35

/-- R129, R130. The entries of the space and the hyphen. A space takes a slot, an Invalid character takes none. -/
def Obligations.SpaceAndHyphenRomEntries : Prop :=
  RomEntry 0x20 .glyphSpace 0x00 0x80 0x00 [] ∧
  RomEntry 0x2D .glyphHyphen 0x40 0xC0 0x80 [6] ∧
  ∀ prm : Params,
    encodeText prm [0x31, 0x20] .small = [0x00, 0x00, 0x0C, 0x00, 0x00] ∧
    encodeText prm [0x31, 0x4B] .small = [0x00, 0x00, 0x00, 0x0C, 0x00]

/-- R131. The lower-case code of each of the 18 letters has the upper-case code's word, and those letters are the only
codes for which both values of bit 5 are supported. -/
def Obligations.CaseFoldsLettersOnly : Prop :=
  (∀ c ∈ letterCodes, romWord (c ||| 0x20) = romWord c ∧ wordValid (romWord c) = true) ∧
  letterCodes.length = 18 ∧
  (∀ c : Byte, c.getLsbD 5 = false → c ∉ letterCodes →
    ¬ (wordValid (romWord c) = true ∧ wordValid (romWord (c ||| 0x20)) = true)) ∧
  romWord 0x30 ≠ romWord 0x10 ∧ romWord 0x2D ≠ romWord 0x0D

/-- R132, R133, R134. Every code that is no entry holds 0x00, '.' and ',' among them: 48 codes are valid, 208 are not,
and there are 26 patterns, four of them shared by two entries. An Invalid character takes no slot. The counts and the
shared patterns are the spec's own inference from R101 to R132: R134 is marked as derived. -/
def Obligations.InvalidRomEntries : Prop :=
  (∀ c : Byte, romWord c = 0x00 ↔ (namedCode c = false ∨ c = 0x2E ∨ c = 0x2C)) ∧
  (∀ c : Byte, codeFor c = none ↔ romWord c = 0x00) ∧
  (∀ c : Byte, 0x80 ≤ c → codeFor c = none) ∧
  codeFor 0x4B = none ∧ codeFor 0x6B = none ∧
  ((List.range 256).filter (fun c => (codeFor (BitVec.ofNat 8 c)).isSome)).length = 48 ∧
  ((List.range 256).filter (fun c => (codeFor (BitVec.ofNat 8 c)).isNone)).length = 208 ∧
  ((List.range 256).filterMap (fun c => codeFor (BitVec.ofNat 8 c))).dedup.length = 26 ∧
  (digitRows ++ letterRows ++ symbolRows).length = 30 ∧
  codeFor 0x30 = codeFor 0x4F ∧ codeFor 0x31 = codeFor 0x49 ∧ codeFor 0x35 = codeFor 0x53 ∧
  codeFor 0x39 = codeFor 0x47 ∧
  ∀ (prm : Params) (c : Byte), namedCode c = false →
    encodeText prm [0x31, c] .small = encodeText prm [0x31] .small

/-- R62, R63, R68, R69. The fields of a ROM word, the segment code (pattern bit `j` sits at bit `j + 1`, bit 0 is the
DP flag's), the address byte and the device-select bytes. The place of the address byte's read/write bit is from general
knowledge (R68, log entry 12). -/
def Obligations.ByteLayouts : Prop :=
  (∀ c : Byte, codeFor c =
    if (romWord c).getLsbD 7 then some ((romWord c).extractLsb' 0 7) else none) ∧
  (∀ c : Byte, (romWord c).getLsbD 7 = false → (romWord c).extractLsb' 0 7 = 0) ∧
  (∀ (p : Pattern) (j : Nat), j < 7 →
    (segmentCode p).getLsbD (j + 1) = p.getLsbD j ∧ (segmentCode p ||| dpFlag).getLsbD (j + 1) = p.getLsbD j) ∧
  (∀ p : Pattern, (segmentCode p).getLsbD 0 = false ∧ (segmentCode p ||| dpFlag).getLsbD 0 = true) ∧
  (∀ a : Addr7, (addressByte a).getLsbD 0 = false ∧
    ∀ j < 7, (addressByte a).getLsbD (j + 1) = a.getLsbD j) ∧
  deviceSelect 0 = 0x60 ∧ deviceSelect 1 = 0x61 ∧ deviceSelect 2 = 0x62

/-- R61, R72, R76. The class of a character in the rule's priority order. Words written out from the decode map decode
to the instructions they stand for, and every other code to the catch-all row. -/
def Obligations.DecodeMap : Prop :=
  (classOf 0x2E = .period ∧ classOf 0x2C = .comma ∧
    ∀ c : Byte, c ≠ 0x2E → c ≠ 0x2C →
      (wordValid (romWord c) = true → classOf c = .glyph (wordPattern (romWord c))) ∧
      (wordValid (romWord c) = false → classOf c = .invalid)) ∧
  decode (.char 0x2E) = .period ∧ decode (.char 0x2C) = .comma ∧
  decode (.char 0x20) = .glyphSpace ∧ decode (.char 0x2D) = .glyphHyphen ∧
  decode (.char 0x30) = .glyph0 ∧ decode (.char 0x39) = .glyph9 ∧
  decode (.char 0x41) = .glyphA false ∧ decode (.char 0x79) = .glyphY true ∧
  (∀ c : Byte, namedCode c = false → decode (.char c) = .invalid c) ∧
  (∀ t : List Byte,
    decode (.request (.write 0 t)) = .writeLarge0 t ∧ decode (.request (.write 1 t)) = .writeLarge1 t ∧
    decode (.request (.write 2 t)) = .writeSmall0 t ∧ decode (.request (.write 3 t)) = .writeSmall1 t ∧
    decode (.request (.write 4 t)) = .writeSmall2 t ∧ decode (.request (.write 5 t)) = .writeId5 t ∧
    decode (.request (.write 6 t)) = .writeId6 t ∧ decode (.request (.write 7 t)) = .writeId7 t) ∧
  (route 0 = some (.large, 0) ∧ route 1 = some (.large, 1) ∧ route 2 = some (.small, 0) ∧
    route 3 = some (.small, 1) ∧ route 4 = some (.small, 2) ∧
    route 5 = none ∧ route 6 = none ∧ route 7 = none) ∧
  (∀ hz : Nat, decode (.request (.init hz)) = .init hz)

/-- Decode and encode agree, for all instructions and for all codes: decoding the code of a well-formed instruction
gives it back with every operand, every code decodes to a well-formed instruction, and encoding what a code decodes to
gives the code back. -/
def Obligations.DecodeEncodeAgree : Prop :=
  (∀ i : Instr, i.wellFormed = true → decode (encode i) = i) ∧
  (∀ c : Code, (decode c).wellFormed = true ∧ encode (decode c) = c)

/-- R75, R260. The result codes: the numbers of the table, a code read back gives the result it was made from, and a
code with the reserved status 6 is no result's (I16). -/
def Obligations.ResultCodes : Prop :=
  Result.word .success = 0x000 ∧ Result.word (.error .invalidArgument) = 0x100 ∧
  Result.word (.error .busStartFailure) = 0x200 ∧ Result.word (.error .addressNackFailure) = 0x300 ∧
  (∀ k : Byte, Result.word (.error (.dataNackFailure k)) = (4 : BitVec 3) ++ k) ∧
  Result.word (.error .timeoutError) = 0x500 ∧ Result.word .none = 0x700 ∧
  (∀ r : Result, Result.ofWord r.word = some r) ∧
  (∀ w : BitVec 11, w.extractLsb' 8 3 = 6 → Result.ofWord w = none)

/-- R7, R43. A configuration that breaks a constraint is rejected, and one that meets them all is taken. A power-on
transaction goes to one of the block's two addresses (R43). That `TEXT_MAX` is at least 1 and that the transaction fits
`buf` is deduced (log entry 5). -/
def Obligations.BadParametersRejected : Prop :=
  ∀ p : Params,
    ((Config.ofParams p).isSome = true ↔
      p.smallAddr ≠ p.largeAddr ∧ p.lineDevAddr0 ≠ p.lineDevAddr1 ∧
      (∀ f : Family, (p.commaBits f).length = f.cap ∧
        (∀ k < f.cap, p.commaBit f k < 8) ∧
        (∀ k < f.cap, ∀ j < f.cap, p.commaBit f k = p.commaBit f j → k = j)) ∧
      (∀ k, p.recoveryLimit = some k → 1 ≤ k) ∧ (∀ k, p.waitLimit = some k → 1 ≤ k) ∧
      (∀ k, p.textMax = some k → 1 ≤ k) ∧
      (∀ a bytes, InitItem.transaction a bytes ∈ p.initSequence →
        (a = p.smallAddr ∨ a = p.largeAddr) ∧ bytes.length ≤ 13))

/-! ### The encoder -/

/-- R142. A period sets bit 0 of the most recently placed slot's digit byte, and is dropped before any glyph. Nothing
else of the state changes. -/
def Obligations.PeriodSetsDpFlag : Prop :=
  (∀ (s : State) (e : EncodeRun), s.encoding = some e → e.nextChar.isSome = true →
    exec .period s = .next { s with encoding := some { e with
      frame := if e.cursor ≠ e.family.cap then e.frame.modify e.cursor (fun b => b ||| 0x01) else e.frame
      scan := e.scan - 1 } }) ∧
  ∀ prm : Params,
    encodeText prm [0x31, 0x2E, 0x32, 0x33] .small = [0x00, 0x0C, 0xB7, 0x9E, 0x00] ∧
    encodeText prm [0x31, 0x32, 0x2E] .small = [0x00, 0x00, 0x0C, 0xB6, 0x00] ∧
    encodeText prm [0x31, 0x2E, 0x2E, 0x32] .small = [0x00, 0x00, 0x0C, 0xB7, 0x00] ∧
    encodeText prm [0x35, 0x2E, 0x20] .small = [0x00, 0x00, 0xDA, 0x01, 0x00] ∧
    encodeText prm [0x2E, 0x31, 0x32, 0x33, 0x34] .small = [0x0D, 0xB6, 0x9E, 0xCC, 0x00]

/-- R143. A comma sets the comma bit of the most recently placed slot in the comma byte, and is dropped before any
glyph. Nothing else of the state changes. -/
def Obligations.CommaSetsCommaFlag : Prop :=
  (∀ (s : State) (e : EncodeRun), s.encoding = some e → e.nextChar.isSome = true →
    exec .comma s = .next { s with encoding := some { e with
      frame := if e.cursor ≠ e.family.cap then
          e.frame.modify e.family.cap (fun b => b ||| (0x01 <<< s.cfg.params.commaBit e.family e.cursor))
        else e.frame
      scan := e.scan - 1 } }) ∧
  ∀ prm : Params, prm.commaBitSmall = [0, 1, 2, 3] →
    encodeText prm [0x20, 0x35, 0x2C, 0x39, 0x35] .small = [0x00, 0xDA, 0xDE, 0xDA, 0x04] ∧
    encodeText prm [0x35, 0x2C] .small = [0x00, 0x00, 0x00, 0xDA, 0x00] ∧
    encodeText prm [0x31, 0x2C, 0x2C, 0x32] .small = [0x00, 0x00, 0x0C, 0xB6, 0x08]

/-- R144 and R146 with the patterns of R101 to R110, for every digit row. -/
def Obligations.DigitsPlaceTheirPattern : Prop :=
  Places .glyph0 0x3F ∧
  Places .glyph1 0x06 ∧
  Places .glyph2 0x5B ∧
  Places .glyph3 0x4F ∧
  Places .glyph4 0x66 ∧
  Places .glyph5 0x6D ∧
  Places .glyph6 0x7D ∧
  Places .glyph7 0x07 ∧
  Places .glyph8 0x7F ∧
  Places .glyph9 0x6F

/-- R144 and R146 with the patterns of R111 to R120, for every letter row from A to J in either case. -/
def Obligations.LettersAToJPlaceTheirPattern : Prop :=
  ∀ lower : Bool,
    Places (.glyphA lower) 0x77 ∧
    Places (.glyphB lower) 0x7C ∧
    Places (.glyphC lower) 0x39 ∧
    Places (.glyphD lower) 0x5E ∧
    Places (.glyphE lower) 0x79 ∧
    Places (.glyphF lower) 0x71 ∧
    Places (.glyphG lower) 0x6F ∧
    Places (.glyphH lower) 0x76 ∧
    Places (.glyphI lower) 0x06 ∧
    Places (.glyphJ lower) 0x0E

/-- R144 and R146 with the patterns of R121 to R128, for every letter row from L to Y in either case. -/
def Obligations.LettersLToYPlaceTheirPattern : Prop :=
  ∀ lower : Bool,
    Places (.glyphL lower) 0x38 ∧
    Places (.glyphN lower) 0x54 ∧
    Places (.glyphO lower) 0x3F ∧
    Places (.glyphP lower) 0x73 ∧
    Places (.glyphS lower) 0x6D ∧
    Places (.glyphT lower) 0x78 ∧
    Places (.glyphU lower) 0x3E ∧
    Places (.glyphY lower) 0x6E

/-- R144 and R146 with the patterns of R129 and R130: a space takes a slot like any glyph. -/
def Obligations.SpaceAndHyphenPlaceTheirPattern : Prop :=
  Places .glyphSpace 0x00 ∧ Places .glyphHyphen 0x40

/-- R144. Every code whose ROM word is valid, but for '.' and ',', takes the next slot to the left while one is free,
with its pattern shifted into bits 7..1. A space takes one too, and both cases of a letter show alike. -/
def Obligations.GlyphsTakeTheNextSlot : Prop :=
  (∀ (c : Byte) (s : State) (e : EncodeRun), c ≠ 0x2E → c ≠ 0x2C → (romWord c).getLsbD 7 = true →
    s.encoding = some e → e.nextChar.isSome = true → 0 < e.cursor →
    exec (decode (.char c)) s = .next { s with encoding := some { e with
      cursor := e.cursor - 1
      frame := e.frame.modify (e.cursor - 1)
        (fun b => b ||| (((romWord c).extractLsb' 0 7).setWidth 8 <<< 1))
      scan := e.scan - 1 } }) ∧
  ∀ prm : Params,
    encodeText prm [0x2D, 0x31] .small = [0x00, 0x00, 0x80, 0x0C, 0x00] ∧
    encodeText prm [0x31, 0x20, 0x32] .small = [0x00, 0x0C, 0x00, 0xB6, 0x00] ∧
    encodeText prm [0x61, 0x62, 0x63] .small = encodeText prm [0x41, 0x42, 0x43] .small ∧
    encodeText prm [0x47] .small = encodeText prm [0x39] .small

/-- R145. An Invalid character is skipped: only the scan moves. -/
def Obligations.InvalidCharacterIsSkipped : Prop :=
  (∀ (c : Byte) (s : State) (e : EncodeRun), s.encoding = some e → e.nextChar.isSome = true →
    exec (.invalid c) s = .next { s with encoding := some { e with scan := e.scan - 1 } }) ∧
  ∀ prm : Params,
    encodeText prm [0x31, 0x4B, 0x32] .small = [0x00, 0x00, 0x0C, 0xB6, 0x00] ∧
    encodeText prm [0x31, 0x2E, 0x4B, 0x32] .small = [0x00, 0x00, 0x0C, 0xB7, 0x00] ∧
    encodeText prm [0x80, 0x00, 0x31] .small = [0x00, 0x00, 0x00, 0x0C, 0x00]

/-- R61, R140. The instruction a character decodes to does to the working state what the loop does for the character's
class as the ROM gives it, for every character. -/
def Obligations.CharacterRowsFollowTheRom : Prop :=
  ∀ (c : Byte) (s : State) (e : EncodeRun), s.encoding = some e → e.nextChar.isSome = true →
    exec (decode (.char c)) s = .next { s with encoding := some (e.classStep s.cfg.params (classOf c)) }

/-- The frame of the character instructions: outside the working state nothing changes, and of the frame bytes at most
the digit byte of the slot now at the cursor and the comma byte change. The operands `t`, `f`, `u` stay. -/
def Obligations.CharacterStepsLeaveTheRest : Prop :=
  ∀ (c : Byte) (s t : State) (e : EncodeRun), s.encoding = some e → exec (decode (.char c)) s = .next t →
    ∃ e' : EncodeRun, t = { s with encoding := some e' } ∧
      e'.family = e.family ∧ e'.unit = e.unit ∧ e'.text = e.text ∧ e'.scan = e.scan - 1 ∧
      e'.frame.length = e.frame.length ∧
      (∀ k, k ≠ e'.cursor → k ≠ e.family.cap → e'.frame[k]? = e.frame[k]?) ∧
      (c ≠ 0x2C → e.cursor ≤ e.family.cap → e'.frame[e.family.cap]? = e.frame[e.family.cap]?) ∧
      (classOf c = .invalid → e'.frame = e.frame ∧ e'.cursor = e.cursor ∧ e'.halted = e.halted)

/-- R22, R140. A character instruction stops where no encode has a character left to read (log entry 4). -/
def Obligations.CharacterNeedsAnEncode : Prop :=
  ∀ (c : Byte) (s : State), (∀ e, s.encoding = some e → e.nextChar = none) →
    exec (decode (.char c)) s = .fault .noCharacter

/-- R148. The scan and the mux view give the same frame, for every text, family and layout of the comma flags. -/
def Obligations.ScanEqualsMuxView : Prop :=
  ∀ (prm : Params) (t : List Byte) (f : Family), encodeText prm t f = muxFrame prm t f

/-- R149, R65, R67. The shape of every encoded frame: its length, flags on placed slots only, no other comma bit, the
unused byte 7 of LargeFamily zero, and the all-zero frame of the empty text. A slot `k` is placed when the text has at
least `cap(f) − k` glyphs. -/
def Obligations.EncodedFrameShape : Prop :=
  ∀ (c : Config) (t : List Byte) (f : Family),
    (encodeText c.params t f).length = f.len ∧
    (∀ k, k < f.cap → (glyphIndices t).length < f.cap - k → (encodeText c.params t f)[k]? = some 0x00) ∧
    (∀ b byte, (encodeText c.params t f)[f.cap]? = some byte → byte.getLsbD b = true →
      ∃ k, k < f.cap ∧ f.cap - k ≤ (glyphIndices t).length ∧ c.params.commaBit f k = b) ∧
    (f = .large → (encodeText c.params t f)[7]? = some 0x00) ∧
    encodeText c.params [] f = List.replicate f.len 0x00

/-- R146. A glyph read with no slot left only halts the scan, and this happens exactly to the texts with more glyphs than
the family has slots: nothing to the left of such a text is read. A flag between the last placed glyph and the overflow
glyph still applies, and Invalid characters never halt. -/
def Obligations.OverflowDropsTheLeft : Prop :=
  (∀ (c : Byte) (p : Pattern) (s : State) (e : EncodeRun), classOf c = .glyph p → s.encoding = some e →
    e.nextChar.isSome = true → e.cursor = 0 →
    exec (decode (.char c)) s = .next { s with encoding := some { e with halted := true, scan := e.scan - 1 } }) ∧
  (∀ (prm : Params) (t : List Byte) (f : Family),
    ((EncodeRun.scanAll prm t.reverse (EncodeRun.start f 0 t)).halted = true ↔ f.cap < (glyphIndices t).length) ∧
    (f.cap < (glyphIndices t).length → ∀ left, encodeText prm (left ++ t) f = encodeText prm t f)) ∧
  ∀ prm : Params,
    encodeText prm [0x31, 0x32, 0x33, 0x34, 0x35] .small = [0xB6, 0x9E, 0xCC, 0xDA, 0x00] ∧
    encodeText prm [0x31, 0x2E, 0x32, 0x33, 0x34, 0x35] .small = [0xB7, 0x9E, 0xCC, 0xDA, 0x00] ∧
    encodeText prm [0x5A, 0x5A, 0x5A, 0x5A, 0x31] .small = [0x00, 0x00, 0x00, 0x0C, 0x00]

/-- R140, R147, R242. A write to a display is the run of its parts (the second view is the model's, log entry 6): from the start of its encode, the character steps
and the end of the scan come, within one step more than the text has characters, to the state the one atomic step
gives. -/
def Obligations.CharacterStepsMakeTheWrite : Prop :=
  ∀ (s : State) (id : DisplayId) (f : Family) (u : Nat) (text : List Byte),
    Accepting s → s.resetAsserted = false → s.cfg.params.admitsText text = true → route id = some (f, u) →
    ∃ k, k ≤ text.length + 1 ∧
      runSteps k (s.beginEncode f u text) = exec (decode (.request (.write id text))) s

/-! ### Framing and requests -/

/-- R70, R170, R171. SmallFamily framing and its range check, which the front end never fails. -/
def Obligations.SmallFamilyFraming : Prop :=
  (∀ (prm : Params) (index : Nat) (f0 f1 f2 f3 f4 : Byte), index ≤ 2 →
    smallFamilyFrame prm index [f0, f1, f2, f3, f4] =
      .descriptor ⟨prm.smallAddr, [prm.resetDataPointer, 0x60 ||| BitVec.ofNat 8 index, f0, f1, f2, f3, f4]⟩) ∧
  (∀ (prm : Params) (index : Nat) (frame : List Byte), 2 < index →
    smallFamilyFrame prm index frame = .invalidArgument) ∧
  (∀ (id : DisplayId) (index : Nat), route id = some (.small, index) → index ≤ 2)

/-- R71, R172, R173. LargeFamily framing and its range check, which the front end never fails. Byte 7 of the frame is
never sent. -/
def Obligations.LargeFamilyFraming : Prop :=
  (∀ (prm : Params) (line : Nat) (f0 f1 f2 f3 f4 f5 f6 f7 : Byte), line ≤ 1 →
    largeFamilyFrame prm line [f0, f1, f2, f3, f4, f5, f6, f7] =
      .descriptor ⟨prm.largeAddr,
        [prm.commandFlag, if line = 0 then prm.lineDevAddr0 else prm.lineDevAddr1, prm.commandFlag,
          prm.dataPointerZero, prm.dataFlag, f0, f1, f2, f3, f4, f5, f6, prm.paddingByte]⟩) ∧
  (∀ (prm : Params) (line : Nat) (frame : List Byte), 1 < line →
    largeFamilyFrame prm line frame = .invalidArgument) ∧
  (∀ (id : DisplayId) (line : Nat), route id = some (.large, line) → line ≤ 1)

/-- R192, R242, R246 to R248. A write to a SmallFamily unit is accepted in one step, with the descriptor the rules
give. Nothing else of the state changes. That `result` too survives the accept is the model's choice (log entry 18). -/
def Obligations.WriteSmallIsAccepted : Prop :=
  ∀ (s : State) (text : List Byte), Accepting s → s.cfg.params.admitsText text = true →
    let accepted := fun select : Byte => { s with
      caller := .requester
      addr7 := s.cfg.params.smallAddr
      buf := [s.cfg.params.resetDataPointer, select] ++ encodeText s.cfg.params text .small ++ s.buf.drop 7
      n := 7
      i := 0
      rcount := 0
      wcount := 0
      latched := true
      fsm := .idle }
    exec (.writeSmall0 text) s = .next (accepted 0x60) ∧
    exec (.writeSmall1 text) s = .next (accepted 0x61) ∧
    exec (.writeSmall2 text) s = .next (accepted 0x62)

/-- R192, R242, R244, R245. A write to a LargeFamily line is accepted in one step, with the descriptor the rules give.
Nothing else of the state changes. That `result` too survives the accept is the model's choice (log entry 18). -/
def Obligations.WriteLargeIsAccepted : Prop :=
  ∀ (s : State) (text : List Byte), Accepting s → s.cfg.params.admitsText text = true →
    let accepted := fun dev : Byte => { s with
      caller := .requester
      addr7 := s.cfg.params.largeAddr
      buf := [s.cfg.params.commandFlag, dev, s.cfg.params.commandFlag, s.cfg.params.dataPointerZero,
          s.cfg.params.dataFlag] ++ (encodeText s.cfg.params text .large).take 7 ++ [s.cfg.params.paddingByte] ++
        s.buf.drop 13
      n := 13
      i := 0
      rcount := 0
      wcount := 0
      latched := true
      fsm := .idle }
    exec (.writeLarge0 text) s = .next (accepted s.cfg.params.lineDevAddr0) ∧
    exec (.writeLarge1 text) s = .next (accepted s.cfg.params.lineDevAddr1)

/-- R249. A reserved identifier returns INVALID_ARGUMENT, whatever the text: `fsm` stays READY, no event is emitted,
and nothing else of the state changes. -/
def Obligations.ReservedIdIsRejected : Prop :=
  ∀ (s : State) (text : List Byte), Accepting s →
    let rejected := { s with
      result := .error .invalidArgument
      returned := s.returned ++ [.error .invalidArgument] }
    exec (.writeId5 text) s = .next rejected ∧ exec (.writeId6 text) s = .next rejected ∧
    exec (.writeId7 text) s = .next rejected

/-- R73. A write to a display with a text longer than `TEXT_MAX` is refused (I17). -/
def Obligations.TextOverTheBoundIsRefused : Prop :=
  ∀ (s : State) (text : List Byte) (k : Nat), Accepting s → s.cfg.params.textMax = some k → k < text.length →
    exec (.writeLarge0 text) s = .refused .textTooLong ∧ exec (.writeLarge1 text) s = .refused .textTooLong ∧
    exec (.writeSmall0 text) s = .refused .textTooLong ∧ exec (.writeSmall1 text) s = .refused .textTooLong ∧
    exec (.writeSmall2 text) s = .refused .textTooLong

/-- R240, R241. While the block accepts no request, a request presented is held: it joins the held requests, and
nothing else changes. That an encode under way holds it too is the model's choice (log entry 7). -/
def Obligations.BusyBlockHoldsRequests : Prop :=
  ∀ (s : State) (r : Request), ¬ Accepting s →
    exec (decode (.request r)) s = .next { s with held := s.held ++ [r] }

/-- R241, R212. READY takes one of the held requests, the one at the position the free pick gives, and leaves the
others held. With none held READY has no step. R241 leaves the order open: that a free value of the counter `draws`
picks, and that the others keep their order, is the model's choice (log entry 10). -/
def Obligations.ReadyTakesOneHeldRequest : Prop :=
  (∀ s : State, s.held ≠ [] →
    ∃ r, s.held[Config.freePick s.draws % s.held.length]? = some r ∧
      s.takeHeld = some (r, { s with
        held := s.held.eraseIdx (Config.freePick s.draws % s.held.length)
        draws := if s.held.length = 1 then s.draws else s.draws + 1 })) ∧
  (∀ s : State, s.resetAsserted = false → Accepting s → s.held = [] → step s = .refused .quiescent)

/-- R250. An initialise request emits the three adapter events and the leading delays of `INIT_SEQUENCE`, and then
accepts its first transaction, or returns SUCCESS where there is none. That all this is one step (log entry 17), and
that `result` survives the accept (log entry 18), is the model's choice. -/
def Obligations.InitEmitsSetupThenRuns : Prop :=
  ∀ (s : State) (hz : Nat) (delays : List Nat), Accepting s →
    let setup := s.trace ++ [.adapterConfigure s.cfg.params.sysClockHz, .adapterSetFrequency hz, .adapterEnable true] ++
      delays.map Event.delay
    (s.cfg.params.initSequence = delays.map InitItem.delay →
      exec (.init hz) s = .next { s with
        trace := setup
        caller := .requester
        result := .success
        returned := s.returned ++ [.success] }) ∧
    (∀ (a : Addr7) (bytes : List Byte) (rest : List InitItem),
      s.cfg.params.initSequence = delays.map InitItem.delay ++ .transaction a bytes :: rest →
      exec (.init hz) s = .next { s with
        trace := setup
        caller := .initialise .success rest
        addr7 := a
        buf := bytes ++ s.buf.drop bytes.length
        n := bytes.length
        i := 0
        rcount := 0
        wcount := 0
        latched := true
        fsm := .idle })

/-- R250. After a transaction of an initialise request: the first error is kept, an error ends the request where
`INIT_STOP_ON_ERROR` is true, else the leading delays of what is left are emitted and the next transaction is accepted,
or the request returns its first error. That the step of DONE or ABORTED does all this, and that `result` holds `r`
meanwhile, is the model's choice (log entry 17). -/
def Obligations.InitKeepsTheFirstError : Prop :=
  ∀ (s : State) (first r : Result) (delays : List Nat) (rest : List InitItem), Quiet s →
    s.caller = .initialise first (delays.map InitItem.delay ++ rest) →
    (s.fsm = .done ∧ r = .success) ∨ (s.fsm = .aborted ∧ s.errLatched = true ∧ r = .error s.err) →
    let kept := if r ≠ .success ∧ first = .success then r else first
    let ended := { s with
      fsm := .ready
      caller := .requester
      result := kept
      returned := s.returned ++ [kept] }
    (r ≠ .success ∧ s.cfg.params.initStopOnError = true → step s = .next ended) ∧
    (¬ (r ≠ .success ∧ s.cfg.params.initStopOnError = true) →
      (rest = [] → step s = .next { ended with trace := s.trace ++ delays.map Event.delay }) ∧
      (∀ a bytes items, rest = .transaction a bytes :: items →
        step s = .next { s with
          result := r
          trace := s.trace ++ delays.map Event.delay
          caller := .initialise kept items
          addr7 := a
          buf := bytes ++ s.buf.drop bytes.length
          n := bytes.length
          i := 0
          rcount := 0
          wcount := 0
          latched := true
          fsm := .idle }))

/-- The frame of the requests where they are accepted: the parameters, the encoder, the held requests, the inputs and
the error register stay, a write adds nothing to the trace, and the bytes of `buf` beyond the descriptor stay. That a
request which goes on leaves `result` is the model's choice (log entry 18). -/
def Obligations.RequestsLeaveTheRest : Prop :=
  ∀ (s t : State) (r : Request), Accepting s → exec (decode (.request r)) s = .next t →
    t.cfg = s.cfg ∧ t.encoding = s.encoding ∧ t.held = s.held ∧ t.answers = s.answers ∧ t.draws = s.draws ∧
    t.resetAsserted = s.resetAsserted ∧ t.err = s.err ∧ t.errLatched = s.errLatched ∧
    (∀ j, t.n ≤ j → t.fsm = .idle → t.buf[j]? = s.buf[j]?) ∧
    (t.fsm = .ready → t.addr7 = s.addr7 ∧ t.buf = s.buf ∧ t.n = s.n ∧ t.i = s.i ∧ t.rcount = s.rcount ∧
      t.wcount = s.wcount ∧ t.latched = s.latched) ∧
    (t.fsm = .idle → t.result = s.result ∧ t.returned = s.returned) ∧
    (∀ id text, r = .write id text → t.trace = s.trace)

/-! ### The transactor -/

/-- R193. The idle check: one sample, no event. -/
def Obligations.IdleCheck : Prop :=
  ∀ s : State, Quiet s → s.fsm = .idle →
    step s = .next { s.sampled with fsm := if s.answer .busIdle = true then .startingIssue else .recovering }

/-- R194, R273. A recovery iteration: a forced stop, a delay, one more on the count, then the sample. At the limit it
aborts with TIMEOUT_ERROR. The count is read only when the limit is set. -/
def Obligations.RecoveryIteration : Prop :=
  ∀ s : State, Quiet s → s.fsm = .recovering →
    s.latched = true ∨ s.cfg.params.recoveryLimit = none →
    let forced := { s with
      trace := s.trace ++ [.forcedStop, .delay s.cfg.params.recoveryDelay]
      rcount := s.rcount + 1
      answers := s.answers.tail
      draws := s.draws + 1 }
    (s.answer .busIdle = true → step s = .next { forced with fsm := .startingIssue }) ∧
    (s.answer .busIdle = false →
      (∀ k, s.cfg.params.recoveryLimit = some k → k ≤ s.rcount + 1 →
        step s = .next { forced with err := .timeoutError, errLatched := true, fsm := .aborted }) ∧
      (s.cfg.params.recoveryLimit = none ∨ (∃ k, s.cfg.params.recoveryLimit = some k ∧ s.rcount + 1 < k) →
        step s = .next forced))

/-- R195, R196. Start: the start condition, then the wait for its result. A failure aborts with BUS_START_FAILURE and
no Stop. -/
def Obligations.StartPhase : Prop :=
  ∀ s : State, Quiet s → s.latched = true →
    (s.fsm = .startingIssue →
      step s = .next { s with trace := s.trace ++ [.start], wcount := 0, fsm := .startingWaitStart }) ∧
    (s.fsm = .startingWaitStart → s.answer .startDone = true →
      (s.sampled.answer .startOk = true →
        step s = .next { s.sampled.sampled with wcount := 0, fsm := .addressWaitReady }) ∧
      (s.sampled.answer .startOk = false →
        step s = .next { s.sampled.sampled with
          wcount := 0, err := .busStartFailure, errLatched := true, fsm := .aborted })) ∧
    (s.fsm = .startingWaitStart → s.answer .startDone = false → FalseWait s)

/-- R197, R198, R199. The address phase: the address byte, then its acknowledgment. A NACK aborts with
ADDRESS_NACK_FAILURE, through a stop where STOP_ON_ADDR_NACK is true. A descriptor with no bytes goes straight to the
stop. -/
def Obligations.AddressPhase : Prop :=
  ∀ s : State, Quiet s → s.latched = true →
    (s.fsm = .addressWaitReady → s.answer .txReady = true →
      step s = .next { s.sampled with
        trace := s.trace ++ [.send (s.addr7.setWidth 8 <<< 1)], wcount := 0, fsm := .addressWaitComplete }) ∧
    (s.fsm = .addressWaitComplete → s.answer .txComplete = true →
      (s.sampled.answer .ack = true → 0 < s.n →
        step s = .next { s.sampled.sampled with wcount := 0, i := 0, fsm := .dataWaitReady }) ∧
      (s.sampled.answer .ack = true → s.n = 0 →
        step s = .next { s.sampled.sampled with wcount := 0, fsm := .stoppingIssue }) ∧
      (s.sampled.answer .ack = false →
        step s = .next { s.sampled.sampled with
          wcount := 0, err := .addressNackFailure, errLatched := true
          fsm := if s.cfg.params.stopOnAddrNack then .abortStoppingIssue else .aborted })) ∧
    (s.fsm = .addressWaitReady → s.answer .txReady = false → FalseWait s) ∧
    (s.fsm = .addressWaitComplete → s.answer .txComplete = false → FalseWait s)

/-- R200, R201, R206. The data phase: `buf[i]` as it stands, then its acknowledgment. A NACK aborts with
DATA_NACK_FAILURE(i), through a stop where STOP_ON_DATA_NACK is true. -/
def Obligations.DataPhase : Prop :=
  ∀ (s : State) (b : Byte), Quiet s → s.latched = true →
    (s.fsm = .dataWaitReady → s.i < s.n → s.buf[s.i]? = some b → s.answer .txReady = true →
      step s = .next { s.sampled with
        trace := s.trace ++ [.send b], wcount := 0, fsm := .dataWaitComplete }) ∧
    (s.fsm = .dataWaitComplete → s.answer .txComplete = true →
      (s.sampled.answer .ack = true →
        step s = .next { s.sampled.sampled with
          wcount := 0, i := s.i + 1
          fsm := if s.i + 1 < s.n then .dataWaitReady else .stoppingIssue }) ∧
      (s.sampled.answer .ack = false →
        step s = .next { s.sampled.sampled with
          wcount := 0, err := .dataNackFailure (BitVec.ofNat 8 s.i), errLatched := true
          fsm := if s.cfg.params.stopOnDataNack then .abortStoppingIssue else .aborted })) ∧
    (s.fsm = .dataWaitReady → s.i < s.n → s.buf[s.i]? = some b → s.answer .txReady = false → FalseWait s) ∧
    (s.fsm = .dataWaitComplete → s.answer .txComplete = false → FalseWait s)

/-- R202, R203, R204, R205. The stops: issue, then completion, after a success and after a NACK. A timeout of the
second kind keeps the first error. -/
def Obligations.StopPhases : Prop :=
  ∀ s : State, Quiet s → s.latched = true →
    (s.fsm = .stoppingIssue →
      step s = .next { s with trace := s.trace ++ [.stop], wcount := 0, fsm := .stoppingWaitStop }) ∧
    (s.fsm = .stoppingWaitStop → s.answer .stopComplete = true →
      step s = .next { s.sampled with wcount := 0, fsm := .done }) ∧
    (s.fsm = .abortStoppingIssue →
      step s = .next { s with trace := s.trace ++ [.stop], wcount := 0, fsm := .abortStoppingWaitStop }) ∧
    (s.fsm = .abortStoppingWaitStop → s.answer .stopComplete = true →
      step s = .next { s.sampled with wcount := 0, fsm := .aborted }) ∧
    (s.fsm = .stoppingWaitStop → s.answer .stopComplete = false → FalseWait s) ∧
    (s.fsm = .abortStoppingWaitStop → s.answer .stopComplete = false →
      (s.cfg.params.waitLimit = none → step s = .next s.sampled) ∧
      (∀ k, s.cfg.params.waitLimit = some k → s.wcount + 1 < k →
        step s = .next { s.sampled with wcount := s.wcount + 1 }) ∧
      (∀ k, s.cfg.params.waitLimit = some k → k ≤ s.wcount + 1 →
        step s = .next { s.sampled with wcount := s.wcount + 1, fsm := .aborted }))

/-- R207, R208. The end of a requester's transaction: the result is SUCCESS, or the latched error, it is returned, and
`fsm` is READY again. -/
def Obligations.TransactionReturnsItsResult : Prop :=
  ∀ s : State, Quiet s → s.caller = .requester →
    (s.fsm = .done →
      step s = .next { s with result := .success, returned := s.returned ++ [.success], fsm := .ready }) ∧
    (s.fsm = .aborted → s.errLatched = true →
      step s = .next { s with
        result := .error s.err, returned := s.returned ++ [.error s.err], fsm := .ready })

/-- R191, R205, R267. Every wait whose sample is 0: with no limit nothing but the model's inputs moves. With a limit the
polls are counted, and at the limit the transaction aborts with TIMEOUT_ERROR and no Stop, but for the stop wait of an
abort, which keeps the first error. `wcount` is read only when the limit is set (R273). -/
def Obligations.WaitOnAFalseSample : Prop :=
  ∀ (s : State) (sig : Signal), Quiet s →
    s.latched = true ∨ (s.cfg.params.waitLimit = none ∧ s.fsm ≠ .dataWaitReady) →
    (s.fsm = .dataWaitReady → s.i < s.n ∧ s.i < s.buf.length) → WaitsFor s sig → s.answer sig = false →
    (s.cfg.params.waitLimit = none → step s = .next s.sampled) ∧
    (∀ k, s.cfg.params.waitLimit = some k → s.wcount + 1 < k →
      step s = .next { s.sampled with wcount := s.wcount + 1 }) ∧
    (∀ k, s.cfg.params.waitLimit = some k → k ≤ s.wcount + 1 → s.fsm ≠ .abortStoppingWaitStop →
      step s = .next { s.sampled with
        wcount := s.wcount + 1, err := .timeoutError, errLatched := true, fsm := .aborted }) ∧
    (∀ k, s.cfg.params.waitLimit = some k → k ≤ s.wcount + 1 → s.fsm = .abortStoppingWaitStop →
      step s = .next { s.sampled with wcount := s.wcount + 1, fsm := .aborted })

/-! ### Whole runs -/

/-- R210, R203, R207. A transaction whose every sample is 1 sends the address and every byte in order, stops, and
returns SUCCESS. -/
def Obligations.AllOnesTransactionSucceeds : Prop :=
  ∀ (s : State) (rest : List Bool), s.Inv → s.resetAsserted = false → s.fsm = .idle → s.caller = .requester →
    s.answers = List.replicate (7 + 3 * s.n) true ++ rest →
    ∃ t, runSteps (8 + 2 * s.n) s = .next t ∧ SameTransaction s t ∧
      t.trace = s.trace ++ [.start, .send (addressByte s.addr7)] ++ sends (s.buf.take s.n) ++ [.stop] ∧
      t.fsm = .ready ∧ t.result = .success ∧ t.returned = s.returned ++ [.success] ∧
      t.i = s.n ∧ t.rcount = 0 ∧ t.wcount = 0 ∧ t.answers = rest

/-- R210, R201, R264. A transaction whose data byte `j` is the first one not acknowledged sends the bytes up to it and
none after, and returns DATA_NACK_FAILURE(j), with no Stop where STOP_ON_DATA_NACK is false. -/
def Obligations.FirstDataNackEndsTheTransaction : Prop :=
  ∀ (s : State) (j : Nat) (rest : List Bool), s.Inv → s.resetAsserted = false → s.fsm = .idle →
    s.caller = .requester → j < s.n → s.cfg.params.stopOnDataNack = false →
    s.answers = List.replicate (8 + 3 * j) true ++ false :: rest →
    ∃ t, runSteps (8 + 2 * j) s = .next t ∧ SameTransaction s t ∧
      t.trace = s.trace ++ [.start, .send (addressByte s.addr7)] ++ sends (s.buf.take (j + 1)) ∧
      t.fsm = .ready ∧ t.result = .error (.dataNackFailure (BitVec.ofNat 8 j)) ∧
      t.returned = s.returned ++ [.error (.dataNackFailure (BitVec.ofNat 8 j))] ∧ t.i = j ∧ t.answers = rest

/-- R194, R210, R265. With `RECOVERY_LIMIT = k` and a bus that never reads idle, exactly `k` forced stops are issued,
and the result is TIMEOUT_ERROR. -/
def Obligations.BoundedRecoveryTimesOut : Prop :=
  ∀ (s : State) (k : Nat) (rest : List Bool), s.Inv → s.resetAsserted = false → s.fsm = .idle →
    s.caller = .requester → s.cfg.params.recoveryLimit = some k →
    s.answers = List.replicate (k + 1) false ++ rest →
    ∃ t, runSteps (k + 2) s = .next t ∧ SameTransaction s t ∧
      t.trace = s.trace ++ recoveryEvents s.cfg.params.recoveryDelay k ∧
      t.fsm = .ready ∧ t.result = .error .timeoutError ∧
      t.returned = s.returned ++ [.error .timeoutError] ∧ t.rcount = k ∧ t.answers = rest

/-- R194, R296. With no recovery limit and a bus that never reads idle the run goes on for ever in RECOVERING: after
any number of iterations it is there still, and no result has been returned. -/
def Obligations.UnboundedRecoveryNeverReturns : Prop :=
  ∀ (s : State) (k : Nat) (rest : List Bool), s.Inv → s.resetAsserted = false → s.fsm = .idle →
    s.cfg.params.recoveryLimit = none → s.answers = List.replicate (k + 1) false ++ rest →
    ∃ t, runSteps (k + 1) s = .next t ∧ SameTransaction s t ∧ t.fsm = .recovering ∧
      t.trace = s.trace ++ recoveryEvents s.cfg.params.recoveryDelay k ∧ t.rcount = k ∧
      t.result = s.result ∧ t.returned = s.returned

/-- R191, R296. With no wait limit a wait whose signal is never sampled as 1 goes on for ever in the same state: after
any number of polls only the model's inputs have moved. -/
def Obligations.UnboundedWaitNeverReturns : Prop :=
  ∀ (s : State) (k : Nat) (rest : List Bool), s.Inv → s.resetAsserted = false → s.fsm.waits = true →
    s.cfg.params.waitLimit = none → s.answers = List.replicate k false ++ rest →
    runSteps k s = .next { s with answers := rest, draws := s.draws + k }

/-- R210, R209. A transaction just accepted has emitted nothing, and every step of it keeps the shape of its trace:
whatever was emitted before it was accepted, then the recovery iterations, then what its state says, each byte at most
once and in order. -/
def Obligations.TransactionTraceShapeKept : Prop :=
  (∀ (s : State) (d : Descriptor), TxTrace s.trace (s.accept d)) ∧
  ∀ (before : List Event) (s t : State), s.Inv → s.resetAsserted = false → s.fsm ≠ .done → s.fsm ≠ .aborted →
    TxTrace before s → step s = .next t → TxTrace before t

/-- R209. No step leads from a later phase back to IDLE, RECOVERING or STARTING. -/
def Obligations.NoStepGoesBack : Prop :=
  ∀ s t : State, s.encoding = none →
    s.fsm.phase = .address ∨ s.fsm.phase = .data ∨ s.fsm.phase = .stopping ∨ s.fsm.phase = .abortStopping →
    step s = .next t →
    t.fsm.phase ≠ .idle ∧ t.fsm.phase ≠ .recovering ∧ t.fsm.phase ≠ .starting

/-- R211, R268. Where an abort can come from: an error is latched only on the way to ABORTED or ABORT_STOPPING, a
start failure in STARTING, an address NACK in ADDRESS, a data NACK in DATA, and a timeout only where a bound is set. -/
def Obligations.AbortSources : Prop :=
  ∀ s t : State, s.resetAsserted = false → s.encoding = none → step s = .next t →
    (t.fsm.phase = .aborted ∨ t.fsm.phase = .abortStopping) → s.fsm.phase ≠ .abortStopping →
    (s.fsm.phase = .starting ∧ t.err = .busStartFailure) ∨
    (s.fsm.phase = .address ∧ t.err = .addressNackFailure) ∨
    (s.fsm.phase = .data ∧ t.err = .dataNackFailure (BitVec.ofNat 8 s.i)) ∨
    (t.err = .timeoutError ∧ t.fsm.phase = .aborted ∧
      ((s.fsm.phase = .recovering ∧ s.cfg.params.recoveryLimit ≠ none) ∨
       (s.fsm.waits = true ∧ s.cfg.params.waitLimit ≠ none)))

/-- R48, R268. Bus events are only ever added at the end of the trace: no step takes one back or reorders them, short
of reset. -/
def Obligations.TraceOnlyGrows : Prop :=
  ∀ s t : State, s.resetAsserted = false → step s = .next t → ∃ es, t.trace = s.trace ++ es

/-- R293. No step changes a parameter, reset included. That the state carries them is the model's choice (log entry
1). -/
def Obligations.ParametersAreFixed : Prop :=
  ∀ s t : State, step s = .next t → t.cfg = s.cfg

/-! ### Steps, reset and the invariant -/

/-- R140, R147, R240. A step runs the decoded instruction: inside an encode that of the character at `scan`, in READY
that of the request taken, on the state from which the request has been taken. Where the scan has ended the step ends
the encode instead. That a machine step inside an encode runs one character, or ends the encode, is deduced (log entry
6: R242 and D31 make a write one atomic step). The clauses on `withCode` and `withFetchWord`, by which a table word placed is run by the next step
as its first instruction, rest on the model's choice of a layout and of the placing (log entry 8). -/
def Obligations.StepRunsTheDecodedInstruction : Prop :=
  (∀ (s : State) (e : EncodeRun) (c : Byte), s.resetAsserted = false → s.encoding = some e →
    e.nextChar = some c → step s = exec (decode (.char c)) s) ∧
  (∀ (s s' : State) (r : Request), s.resetAsserted = false → Accepting s → s.takeHeld = some (r, s') →
    step s = exec (decode (.request r)) s') ∧
  (∀ (s : State) (c : Byte), ∃ e, (s.withCode (.char c)).encoding = some e ∧
    step (s.withCode (.char c)) = exec (decode (.char c)) (s.withCode (.char c))) ∧
  (∀ (s : State) (r : Request),
    step (s.withCode (.request r)) =
      exec (decode (.request r)) { s with resetAsserted := false, fsm := .ready, encoding := none, held := [] }) ∧
  (∀ (s : State) (nbits w : Nat) (i : Instr), decodeTableWord nbits w = some i →
    (∃ c, decode c = i ∧ s.withFetchWord nbits w = s.withCode c) ∧
    ∃ s1, step (s.withFetchWord nbits w) = exec i s1) ∧
  (∀ (s : State) (e : EncodeRun), s.resetAsserted = false → s.encoding = some e →
    (e.halted = true ∨ e.scan < 0) → step s = .next (s.finishEncode e))

/-- R29, R290, R291. The state after reset, for every configuration: READY, NONE, an empty trace, and no transactor
register specified, so that a step that reads one before it is written faults, and only such a step (R29, R273). Reset asserted in any state gives that
state: no Stop is issued, no result is returned and the running request is lost. That the registers hold zero meanwhile
and that the requests not yet accepted stay held is the model's choice (log entries 2 and 11). -/
def Obligations.ResetStateAsSpecified : Prop :=
  (∀ s : State, s.resetAsserted = true →
    step s = .next { State.resetWith s.cfg with held := s.held, answers := s.answers, draws := s.draws }) ∧
  (∀ s : State, Quiet s → (step s = .fault .unspecifiedRead ↔
    (s.latched = false ∧ ReadsRegisters s) ∨ (s.errLatched = false ∧ s.fsm = .aborted))) ∧
  ∀ c : Config,
    (State.resetWith c).fsm = .ready ∧ (State.resetWith c).result = .none ∧
    (State.resetWith c).result.word = 0x700 ∧ (State.resetWith c).trace = [] ∧
    (State.resetWith c).latched = false ∧ (State.resetWith c).errLatched = false ∧
    (State.resetWith c).encoding = none ∧ (State.resetWith c).cfg = c ∧
    State.reset = State.resetWith Config.atReset

/-- The invariant holds after reset, for every configuration. Its clause that `i` is at most `n` holds there by the
model's choice of zero for both (log entry 2): R29 leaves them unspecified. -/
def Obligations.ResetMeetsTheInvariant : Prop :=
  ∀ c : Config, (State.resetWith c).Inv

/-- Every step keeps the invariant. A step that takes a reset keeps its clause that `i` is at most `n` by the model's
choice of zero for both (log entry 2). -/
def Obligations.StepKeepsTheInvariant : Prop :=
  ∀ s t : State, s.Inv → step s = .next t → t.Inv

/-- R29, R74. From a state of the invariant no step faults: no register is read before it is written, and no code
makes the block trap. The only stops are the quiescent end of a run and a text over the bound. -/
def Obligations.NoStepFaults : Prop :=
  ∀ s : State, s.Inv →
    (∃ t, step s = .next t) ∨ step s = .refused .quiescent ∨ step s = .refused .textTooLong
end

