-- ==== Sys2Proof/Laws/Encoder.lean ====
section
/-! SUPPORT. What the shared operations of the encoder do, said once. -/

namespace Sys2Proof.Machine

/-! ### The frame's bytes -/

@[simp] theorem orByte_length (frame : List Byte) (k : Nat) (v : Byte) :
    (orByte frame k v).length = frame.length := by simp [orByte]

theorem orByte_getElem? (frame : List Byte) (k j : Nat) (v : Byte) :
    (orByte frame k v)[j]? = if k = j then (frame[j]?).map (fun b => b ||| v) else frame[j]? := by
  rw [orByte, List.getElem?_modify]
  split <;> cases frame[j]? <;> rfl

/-! ### The fields a character step leaves alone -/

@[simp] theorem EncodeRun.classStep_family (p : Params) (cl : CharClass) (e : EncodeRun) :
    (e.classStep p cl).family = e.family := by
  cases cl <;> simp only [EncodeRun.classStep, EncodeRun.advance, EncodeRun.stepPeriod, EncodeRun.stepComma,
    EncodeRun.stepGlyph, EncodeRun.stepInvalid] <;> split <;> rfl

@[simp] theorem EncodeRun.classStep_unit (p : Params) (cl : CharClass) (e : EncodeRun) :
    (e.classStep p cl).unit = e.unit := by
  cases cl <;> simp only [EncodeRun.classStep, EncodeRun.advance, EncodeRun.stepPeriod, EncodeRun.stepComma,
    EncodeRun.stepGlyph, EncodeRun.stepInvalid] <;> split <;> rfl

@[simp] theorem EncodeRun.classStep_text (p : Params) (cl : CharClass) (e : EncodeRun) :
    (e.classStep p cl).text = e.text := by
  cases cl <;> simp only [EncodeRun.classStep, EncodeRun.advance, EncodeRun.stepPeriod, EncodeRun.stepComma,
    EncodeRun.stepGlyph, EncodeRun.stepInvalid] <;> split <;> rfl

@[simp] theorem EncodeRun.classStep_scan (p : Params) (cl : CharClass) (e : EncodeRun) :
    (e.classStep p cl).scan = e.scan - 1 := by
  cases cl <;> simp only [EncodeRun.classStep, EncodeRun.advance, EncodeRun.stepPeriod, EncodeRun.stepComma,
    EncodeRun.stepGlyph, EncodeRun.stepInvalid] <;> split <;> rfl

@[simp] theorem EncodeRun.classStep_frame_length (p : Params) (cl : CharClass) (e : EncodeRun) :
    (e.classStep p cl).frame.length = e.frame.length := by
  cases cl <;> simp only [EncodeRun.classStep, EncodeRun.advance, EncodeRun.stepPeriod, EncodeRun.stepComma,
    EncodeRun.stepGlyph, EncodeRun.stepInvalid] <;> split <;> simp

/-! ### The scan -/

@[simp] theorem EncodeRun.scanAll_family (p : Params) (cs : List Byte) (e : EncodeRun) :
    (EncodeRun.scanAll p cs e).family = e.family := by
  induction cs generalizing e with
  | nil => rfl
  | cons c rest ih => rw [EncodeRun.scanAll]; split <;> simp [ih]

@[simp] theorem EncodeRun.scanAll_unit (p : Params) (cs : List Byte) (e : EncodeRun) :
    (EncodeRun.scanAll p cs e).unit = e.unit := by
  induction cs generalizing e with
  | nil => rfl
  | cons c rest ih => rw [EncodeRun.scanAll]; split <;> simp [ih]

@[simp] theorem EncodeRun.scanAll_frame_length (p : Params) (cs : List Byte) (e : EncodeRun) :
    (EncodeRun.scanAll p cs e).frame.length = e.frame.length := by
  induction cs generalizing e with
  | nil => rfl
  | cons c rest ih => rw [EncodeRun.scanAll]; split <;> simp [ih]

/-- A halted scan reads no more (R146). -/
theorem EncodeRun.scanAll_halted (p : Params) (cs : List Byte) (e : EncodeRun) (h : e.halted = true) :
    EncodeRun.scanAll p cs e = e := by
  cases cs <;> simp [EncodeRun.scanAll, h]

/-- Scanning two stretches is scanning one and then the other. -/
theorem EncodeRun.scanAll_append (p : Params) (cs ds : List Byte) (e : EncodeRun) :
    EncodeRun.scanAll p (cs ++ ds) e = EncodeRun.scanAll p ds (EncodeRun.scanAll p cs e) := by
  induction cs generalizing e with
  | nil => rfl
  | cons c rest ih =>
    simp only [List.cons_append, EncodeRun.scanAll]
    split
    · rename_i h
      rw [EncodeRun.scanAll_halted p ds e h]
    · exact ih _

/-- A character step reads the parameters only through `COMMA_BIT` of its family. -/
theorem EncodeRun.classStep_congr {p q : Params} {f : Family} (h : p.commaBits f = q.commaBits f) (cl : CharClass)
    (e : EncodeRun) (hf : e.family = f) : e.classStep p cl = e.classStep q cl := by
  subst hf
  cases cl <;> simp only [EncodeRun.classStep, EncodeRun.stepComma, commaFlag, Params.commaBit, h]

/-- An encode "reads nothing but `t`, `f`, the ROM and `COMMA_BIT`" (R140). -/
theorem encodeText_congr {p q : Params} {f : Family} (h : p.commaBits f = q.commaBits f) (t : List Byte) :
    encodeText p t f = encodeText q t f := by
  have key : ∀ (cs : List Byte) (e : EncodeRun), e.family = f →
      EncodeRun.scanAll p cs e = EncodeRun.scanAll q cs e := by
    intro cs
    induction cs with
    | nil => intro e _; rfl
    | cons c rest ih =>
      intro e hf
      simp only [EncodeRun.scanAll]
      rw [EncodeRun.classStep_congr h _ _ hf, ih _ (by simpa using hf)]
  simp only [encodeText]
  rw [key _ _ rfl]

/-- What a character operation can do: run on the working state of an encode with a character left, or stop. -/
theorem State.onEncoder_cases (s : State) (f : EncodeRun → EncodeRun) :
    (∃ e, s.encoding = some e ∧ e.nextChar.isSome = true ∧
      s.onEncoder f = .next { s with encoding := some (f e).advance }) ∨
    ((∀ e, s.encoding = some e → e.nextChar = none) ∧ s.onEncoder f = .fault .noCharacter) := by
  unfold State.onEncoder
  cases he : s.encoding with
  | none => exact .inr ⟨by simp, rfl⟩
  | some e =>
    cases hn : e.nextChar with
    | none => exact .inr ⟨by rintro e' ⟨⟩; exact hn, by simp [hn]⟩
    | some c => exact .inl ⟨e, rfl, by simp [hn], by simp [hn]⟩

end Sys2Proof.Machine
end

