-- ==== Sys2Proof/Laws/Memory.lean ====
section
/-! SUPPORT. The laws of memories and of the ROM. The block writes no addressed memory, so its one memory operation is
the read, and the canonical form is a fact about the ROM. -/

namespace Sys2Proof.Machine

/-- The ROM is in canonical form. -/
theorem rom_wf : rom.wf = true := by decide

/-- The ROM lists addresses of its 256 words only (R40). -/
theorem rom_addresses : rom.all (fun cell => decide (cell.1 < 256)) = true := by decide

/-- A memory in canonical form from `lo` lists no address below `lo`. -/
theorem Memory.read_below {m : Memory} {lo a : Nat} (h : Memory.wfFrom lo m = true) (ha : a < lo) :
    m.read a = Memory.unlisted := by
  induction m generalizing lo with
  | nil => rfl
  | cons cell rest ih =>
    obtain ⟨b, v⟩ := cell
    simp only [Memory.wfFrom, Bool.and_eq_true, decide_eq_true_eq] at h
    have hb : b ≠ a := by omega
    simp only [Memory.read, hb, if_false]
    exact ih h.2 (by omega)

/-- The canonical form is canonical: two memories in it that read alike everywhere are equal lists. -/
theorem Memory.ext_of_read {m m' : Memory} {lo : Nat} (h : Memory.wfFrom lo m = true)
    (h' : Memory.wfFrom lo m' = true) (hr : ∀ a, m.read a = m'.read a) : m = m' := by
  induction m generalizing m' lo with
  | nil =>
    cases m' with
    | nil => rfl
    | cons cell rest =>
      obtain ⟨b, v⟩ := cell
      have hv := hr b
      simp only [Memory.wfFrom, Bool.and_eq_true, Bool.not_eq_true', beq_eq_false_iff_ne, ne_eq] at h'
      simp only [Memory.read, if_true] at hv
      exact absurd hv.symm h'.1.2
  | cons cell rest ih =>
    obtain ⟨b, v⟩ := cell
    cases m' with
    | nil =>
      have hv := hr b
      simp only [Memory.wfFrom, Bool.and_eq_true, Bool.not_eq_true', beq_eq_false_iff_ne, ne_eq] at h
      simp only [Memory.read, if_true] at hv
      exact absurd hv h.1.2
    | cons cell' rest' =>
      obtain ⟨b', v'⟩ := cell'
      simp only [Memory.wfFrom, Bool.and_eq_true, Bool.not_eq_true', beq_eq_false_iff_ne, ne_eq,
        decide_eq_true_eq] at h h'
      have hbb : b = b' := by
        have h1 := hr b
        have h2 := hr b'
        by_cases hlt : b < b'
        · have hne : b' ≠ b := by omega
          simp only [Memory.read, if_true, hne, if_false] at h1
          rw [Memory.read_below h'.2 (by omega)] at h1
          exact absurd h1 h.1.2
        · by_cases hgt : b' < b
          · have hne : b ≠ b' := by omega
            simp only [Memory.read, if_true, hne, if_false] at h2
            rw [Memory.read_below h.2 (by omega)] at h2
            exact absurd h2.symm h'.1.2
          · omega
      subst hbb
      have hvv : v = v' := by simpa [Memory.read] using hr b
      subst hvv
      have : rest = rest' := by
        refine ih h.2 h'.2 (fun a => ?_)
        by_cases hab : b = a
        · subst hab
          rw [Memory.read_below h.2 (by omega), Memory.read_below h'.2 (by omega)]
        · simpa [Memory.read, hab] using hr a
      rw [this]

end Sys2Proof.Machine
end

