-- ==== Sys2Proof/Laws/State.lean ====
section
/-! SUPPORT. One lemma for each field and each named update of the state, so that no proof unfolds a record update. -/

namespace Sys2Proof.Machine

/-! ### `State.emit` -/

@[simp] theorem State.emit_cfg (s : State) (e : Event) : (s.emit e).cfg = s.cfg := rfl
@[simp] theorem State.emit_fsm (s : State) (e : Event) : (s.emit e).fsm = s.fsm := rfl
@[simp] theorem State.emit_addr7 (s : State) (e : Event) : (s.emit e).addr7 = s.addr7 := rfl
@[simp] theorem State.emit_buf (s : State) (e : Event) : (s.emit e).buf = s.buf := rfl
@[simp] theorem State.emit_n (s : State) (e : Event) : (s.emit e).n = s.n := rfl
@[simp] theorem State.emit_i (s : State) (e : Event) : (s.emit e).i = s.i := rfl
@[simp] theorem State.emit_err (s : State) (e : Event) : (s.emit e).err = s.err := rfl
@[simp] theorem State.emit_rcount (s : State) (e : Event) : (s.emit e).rcount = s.rcount := rfl
@[simp] theorem State.emit_wcount (s : State) (e : Event) : (s.emit e).wcount = s.wcount := rfl
@[simp] theorem State.emit_result (s : State) (e : Event) : (s.emit e).result = s.result := rfl
@[simp] theorem State.emit_trace (s : State) (e : Event) : (s.emit e).trace = s.trace ++ [e] := rfl
@[simp] theorem State.emit_returned (s : State) (e : Event) : (s.emit e).returned = s.returned := rfl
@[simp] theorem State.emit_encoding (s : State) (e : Event) : (s.emit e).encoding = s.encoding := rfl
@[simp] theorem State.emit_caller (s : State) (e : Event) : (s.emit e).caller = s.caller := rfl
@[simp] theorem State.emit_latched (s : State) (e : Event) : (s.emit e).latched = s.latched := rfl
@[simp] theorem State.emit_errLatched (s : State) (e : Event) : (s.emit e).errLatched = s.errLatched := rfl
@[simp] theorem State.emit_held (s : State) (e : Event) : (s.emit e).held = s.held := rfl
@[simp] theorem State.emit_answers (s : State) (e : Event) : (s.emit e).answers = s.answers := rfl
@[simp] theorem State.emit_draws (s : State) (e : Event) : (s.emit e).draws = s.draws := rfl
@[simp] theorem State.emit_resetAsserted (s : State) (e : Event) : (s.emit e).resetAsserted = s.resetAsserted := rfl

/-! ### `State.setFsm` -/

@[simp] theorem State.setFsm_cfg (s : State) (f : Fsm) : (s.setFsm f).cfg = s.cfg := rfl
@[simp] theorem State.setFsm_fsm (s : State) (f : Fsm) : (s.setFsm f).fsm = f := rfl
@[simp] theorem State.setFsm_addr7 (s : State) (f : Fsm) : (s.setFsm f).addr7 = s.addr7 := rfl
@[simp] theorem State.setFsm_buf (s : State) (f : Fsm) : (s.setFsm f).buf = s.buf := rfl
@[simp] theorem State.setFsm_n (s : State) (f : Fsm) : (s.setFsm f).n = s.n := rfl
@[simp] theorem State.setFsm_i (s : State) (f : Fsm) : (s.setFsm f).i = s.i := rfl
@[simp] theorem State.setFsm_err (s : State) (f : Fsm) : (s.setFsm f).err = s.err := rfl
@[simp] theorem State.setFsm_rcount (s : State) (f : Fsm) : (s.setFsm f).rcount = s.rcount := rfl
@[simp] theorem State.setFsm_wcount (s : State) (f : Fsm) : (s.setFsm f).wcount = s.wcount := rfl
@[simp] theorem State.setFsm_result (s : State) (f : Fsm) : (s.setFsm f).result = s.result := rfl
@[simp] theorem State.setFsm_trace (s : State) (f : Fsm) : (s.setFsm f).trace = s.trace := rfl
@[simp] theorem State.setFsm_returned (s : State) (f : Fsm) : (s.setFsm f).returned = s.returned := rfl
@[simp] theorem State.setFsm_encoding (s : State) (f : Fsm) : (s.setFsm f).encoding = s.encoding := rfl
@[simp] theorem State.setFsm_caller (s : State) (f : Fsm) : (s.setFsm f).caller = s.caller := rfl
@[simp] theorem State.setFsm_latched (s : State) (f : Fsm) : (s.setFsm f).latched = s.latched := rfl
@[simp] theorem State.setFsm_errLatched (s : State) (f : Fsm) : (s.setFsm f).errLatched = s.errLatched := rfl
@[simp] theorem State.setFsm_held (s : State) (f : Fsm) : (s.setFsm f).held = s.held := rfl
@[simp] theorem State.setFsm_answers (s : State) (f : Fsm) : (s.setFsm f).answers = s.answers := rfl
@[simp] theorem State.setFsm_draws (s : State) (f : Fsm) : (s.setFsm f).draws = s.draws := rfl
@[simp] theorem State.setFsm_resetAsserted (s : State) (f : Fsm) : (s.setFsm f).resetAsserted = s.resetAsserted := rfl

/-! ### `State.sampled` -/

@[simp] theorem State.sampled_cfg (s : State) : s.sampled.cfg = s.cfg := rfl
@[simp] theorem State.sampled_fsm (s : State) : s.sampled.fsm = s.fsm := rfl
@[simp] theorem State.sampled_addr7 (s : State) : s.sampled.addr7 = s.addr7 := rfl
@[simp] theorem State.sampled_buf (s : State) : s.sampled.buf = s.buf := rfl
@[simp] theorem State.sampled_n (s : State) : s.sampled.n = s.n := rfl
@[simp] theorem State.sampled_i (s : State) : s.sampled.i = s.i := rfl
@[simp] theorem State.sampled_err (s : State) : s.sampled.err = s.err := rfl
@[simp] theorem State.sampled_rcount (s : State) : s.sampled.rcount = s.rcount := rfl
@[simp] theorem State.sampled_wcount (s : State) : s.sampled.wcount = s.wcount := rfl
@[simp] theorem State.sampled_result (s : State) : s.sampled.result = s.result := rfl
@[simp] theorem State.sampled_trace (s : State) : s.sampled.trace = s.trace := rfl
@[simp] theorem State.sampled_returned (s : State) : s.sampled.returned = s.returned := rfl
@[simp] theorem State.sampled_encoding (s : State) : s.sampled.encoding = s.encoding := rfl
@[simp] theorem State.sampled_caller (s : State) : s.sampled.caller = s.caller := rfl
@[simp] theorem State.sampled_latched (s : State) : s.sampled.latched = s.latched := rfl
@[simp] theorem State.sampled_errLatched (s : State) : s.sampled.errLatched = s.errLatched := rfl
@[simp] theorem State.sampled_held (s : State) : s.sampled.held = s.held := rfl
@[simp] theorem State.sampled_answers (s : State) : s.sampled.answers = s.answers.tail := rfl
@[simp] theorem State.sampled_draws (s : State) : s.sampled.draws = s.draws + 1 := rfl
@[simp] theorem State.sampled_resetAsserted (s : State) : s.sampled.resetAsserted = s.resetAsserted := rfl

/-! ### `State.present` -/

@[simp] theorem State.present_cfg (s : State) (r : Request) : (s.present r).cfg = s.cfg := rfl
@[simp] theorem State.present_fsm (s : State) (r : Request) : (s.present r).fsm = s.fsm := rfl
@[simp] theorem State.present_addr7 (s : State) (r : Request) : (s.present r).addr7 = s.addr7 := rfl
@[simp] theorem State.present_buf (s : State) (r : Request) : (s.present r).buf = s.buf := rfl
@[simp] theorem State.present_n (s : State) (r : Request) : (s.present r).n = s.n := rfl
@[simp] theorem State.present_i (s : State) (r : Request) : (s.present r).i = s.i := rfl
@[simp] theorem State.present_err (s : State) (r : Request) : (s.present r).err = s.err := rfl
@[simp] theorem State.present_rcount (s : State) (r : Request) : (s.present r).rcount = s.rcount := rfl
@[simp] theorem State.present_wcount (s : State) (r : Request) : (s.present r).wcount = s.wcount := rfl
@[simp] theorem State.present_result (s : State) (r : Request) : (s.present r).result = s.result := rfl
@[simp] theorem State.present_trace (s : State) (r : Request) : (s.present r).trace = s.trace := rfl
@[simp] theorem State.present_returned (s : State) (r : Request) : (s.present r).returned = s.returned := rfl
@[simp] theorem State.present_encoding (s : State) (r : Request) : (s.present r).encoding = s.encoding := rfl
@[simp] theorem State.present_caller (s : State) (r : Request) : (s.present r).caller = s.caller := rfl
@[simp] theorem State.present_latched (s : State) (r : Request) : (s.present r).latched = s.latched := rfl
@[simp] theorem State.present_errLatched (s : State) (r : Request) : (s.present r).errLatched = s.errLatched := rfl
@[simp] theorem State.present_held (s : State) (r : Request) : (s.present r).held = s.held ++ [r] := rfl
@[simp] theorem State.present_answers (s : State) (r : Request) : (s.present r).answers = s.answers := rfl
@[simp] theorem State.present_draws (s : State) (r : Request) : (s.present r).draws = s.draws := rfl
@[simp] theorem State.present_resetAsserted (s : State) (r : Request) : (s.present r).resetAsserted = s.resetAsserted := rfl

/-! ### `State.returnResult` -/

@[simp] theorem State.returnResult_cfg (s : State) (r : Result) : (s.returnResult r).cfg = s.cfg := rfl
@[simp] theorem State.returnResult_fsm (s : State) (r : Result) : (s.returnResult r).fsm = s.fsm := rfl
@[simp] theorem State.returnResult_addr7 (s : State) (r : Result) : (s.returnResult r).addr7 = s.addr7 := rfl
@[simp] theorem State.returnResult_buf (s : State) (r : Result) : (s.returnResult r).buf = s.buf := rfl
@[simp] theorem State.returnResult_n (s : State) (r : Result) : (s.returnResult r).n = s.n := rfl
@[simp] theorem State.returnResult_i (s : State) (r : Result) : (s.returnResult r).i = s.i := rfl
@[simp] theorem State.returnResult_err (s : State) (r : Result) : (s.returnResult r).err = s.err := rfl
@[simp] theorem State.returnResult_rcount (s : State) (r : Result) : (s.returnResult r).rcount = s.rcount := rfl
@[simp] theorem State.returnResult_wcount (s : State) (r : Result) : (s.returnResult r).wcount = s.wcount := rfl
@[simp] theorem State.returnResult_result (s : State) (r : Result) : (s.returnResult r).result = r := rfl
@[simp] theorem State.returnResult_trace (s : State) (r : Result) : (s.returnResult r).trace = s.trace := rfl
@[simp] theorem State.returnResult_returned (s : State) (r : Result) : (s.returnResult r).returned = s.returned ++ [r] := rfl
@[simp] theorem State.returnResult_encoding (s : State) (r : Result) : (s.returnResult r).encoding = s.encoding := rfl
@[simp] theorem State.returnResult_caller (s : State) (r : Result) : (s.returnResult r).caller = s.caller := rfl
@[simp] theorem State.returnResult_latched (s : State) (r : Result) : (s.returnResult r).latched = s.latched := rfl
@[simp] theorem State.returnResult_errLatched (s : State) (r : Result) : (s.returnResult r).errLatched = s.errLatched := rfl
@[simp] theorem State.returnResult_held (s : State) (r : Result) : (s.returnResult r).held = s.held := rfl
@[simp] theorem State.returnResult_answers (s : State) (r : Result) : (s.returnResult r).answers = s.answers := rfl
@[simp] theorem State.returnResult_draws (s : State) (r : Result) : (s.returnResult r).draws = s.draws := rfl
@[simp] theorem State.returnResult_resetAsserted (s : State) (r : Result) : (s.returnResult r).resetAsserted = s.resetAsserted := rfl

/-! ### `State.accept` -/

@[simp] theorem State.accept_cfg (s : State) (d : Descriptor) : (s.accept d).cfg = s.cfg := rfl
@[simp] theorem State.accept_fsm (s : State) (d : Descriptor) : (s.accept d).fsm = .idle := rfl
@[simp] theorem State.accept_addr7 (s : State) (d : Descriptor) : (s.accept d).addr7 = d.addr7 := rfl
@[simp] theorem State.accept_buf (s : State) (d : Descriptor) : (s.accept d).buf = latchBytes s.buf d.bytes := rfl
@[simp] theorem State.accept_n (s : State) (d : Descriptor) : (s.accept d).n = d.bytes.length := rfl
@[simp] theorem State.accept_i (s : State) (d : Descriptor) : (s.accept d).i = 0 := rfl
@[simp] theorem State.accept_err (s : State) (d : Descriptor) : (s.accept d).err = s.err := rfl
@[simp] theorem State.accept_rcount (s : State) (d : Descriptor) : (s.accept d).rcount = 0 := rfl
@[simp] theorem State.accept_wcount (s : State) (d : Descriptor) : (s.accept d).wcount = 0 := rfl
@[simp] theorem State.accept_result (s : State) (d : Descriptor) : (s.accept d).result = s.result := rfl
@[simp] theorem State.accept_trace (s : State) (d : Descriptor) : (s.accept d).trace = s.trace := rfl
@[simp] theorem State.accept_returned (s : State) (d : Descriptor) : (s.accept d).returned = s.returned := rfl
@[simp] theorem State.accept_encoding (s : State) (d : Descriptor) : (s.accept d).encoding = s.encoding := rfl
@[simp] theorem State.accept_caller (s : State) (d : Descriptor) : (s.accept d).caller = s.caller := rfl
@[simp] theorem State.accept_latched (s : State) (d : Descriptor) : (s.accept d).latched = true := rfl
@[simp] theorem State.accept_errLatched (s : State) (d : Descriptor) : (s.accept d).errLatched = s.errLatched := rfl
@[simp] theorem State.accept_held (s : State) (d : Descriptor) : (s.accept d).held = s.held := rfl
@[simp] theorem State.accept_answers (s : State) (d : Descriptor) : (s.accept d).answers = s.answers := rfl
@[simp] theorem State.accept_draws (s : State) (d : Descriptor) : (s.accept d).draws = s.draws := rfl
@[simp] theorem State.accept_resetAsserted (s : State) (d : Descriptor) : (s.accept d).resetAsserted = s.resetAsserted := rfl

/-! ### `State.raiseAbort` -/

@[simp] theorem State.raiseAbort_cfg (s : State) (e : Err) (b : Bool) : (s.raiseAbort e b).cfg = s.cfg := rfl
@[simp] theorem State.raiseAbort_fsm (s : State) (e : Err) (b : Bool) : (s.raiseAbort e b).fsm = if b then .abortStoppingIssue else .aborted := rfl
@[simp] theorem State.raiseAbort_addr7 (s : State) (e : Err) (b : Bool) : (s.raiseAbort e b).addr7 = s.addr7 := rfl
@[simp] theorem State.raiseAbort_buf (s : State) (e : Err) (b : Bool) : (s.raiseAbort e b).buf = s.buf := rfl
@[simp] theorem State.raiseAbort_n (s : State) (e : Err) (b : Bool) : (s.raiseAbort e b).n = s.n := rfl
@[simp] theorem State.raiseAbort_i (s : State) (e : Err) (b : Bool) : (s.raiseAbort e b).i = s.i := rfl
@[simp] theorem State.raiseAbort_err (s : State) (e : Err) (b : Bool) : (s.raiseAbort e b).err = e := rfl
@[simp] theorem State.raiseAbort_rcount (s : State) (e : Err) (b : Bool) : (s.raiseAbort e b).rcount = s.rcount := rfl
@[simp] theorem State.raiseAbort_wcount (s : State) (e : Err) (b : Bool) : (s.raiseAbort e b).wcount = s.wcount := rfl
@[simp] theorem State.raiseAbort_result (s : State) (e : Err) (b : Bool) : (s.raiseAbort e b).result = s.result := rfl
@[simp] theorem State.raiseAbort_trace (s : State) (e : Err) (b : Bool) : (s.raiseAbort e b).trace = s.trace := rfl
@[simp] theorem State.raiseAbort_returned (s : State) (e : Err) (b : Bool) : (s.raiseAbort e b).returned = s.returned := rfl
@[simp] theorem State.raiseAbort_encoding (s : State) (e : Err) (b : Bool) : (s.raiseAbort e b).encoding = s.encoding := rfl
@[simp] theorem State.raiseAbort_caller (s : State) (e : Err) (b : Bool) : (s.raiseAbort e b).caller = s.caller := rfl
@[simp] theorem State.raiseAbort_latched (s : State) (e : Err) (b : Bool) : (s.raiseAbort e b).latched = s.latched := rfl
@[simp] theorem State.raiseAbort_errLatched (s : State) (e : Err) (b : Bool) : (s.raiseAbort e b).errLatched = true := rfl
@[simp] theorem State.raiseAbort_held (s : State) (e : Err) (b : Bool) : (s.raiseAbort e b).held = s.held := rfl
@[simp] theorem State.raiseAbort_answers (s : State) (e : Err) (b : Bool) : (s.raiseAbort e b).answers = s.answers := rfl
@[simp] theorem State.raiseAbort_draws (s : State) (e : Err) (b : Bool) : (s.raiseAbort e b).draws = s.draws := rfl
@[simp] theorem State.raiseAbort_resetAsserted (s : State) (e : Err) (b : Bool) : (s.raiseAbort e b).resetAsserted = s.resetAsserted := rfl

/-! ### `State.timeout` -/

@[simp] theorem State.timeout_cfg (s : State) : s.timeout.cfg = s.cfg := rfl
@[simp] theorem State.timeout_fsm (s : State) : s.timeout.fsm = .aborted := rfl
@[simp] theorem State.timeout_addr7 (s : State) : s.timeout.addr7 = s.addr7 := rfl
@[simp] theorem State.timeout_buf (s : State) : s.timeout.buf = s.buf := rfl
@[simp] theorem State.timeout_n (s : State) : s.timeout.n = s.n := rfl
@[simp] theorem State.timeout_i (s : State) : s.timeout.i = s.i := rfl
@[simp] theorem State.timeout_err (s : State) : s.timeout.err = .timeoutError := rfl
@[simp] theorem State.timeout_rcount (s : State) : s.timeout.rcount = s.rcount := rfl
@[simp] theorem State.timeout_wcount (s : State) : s.timeout.wcount = s.wcount := rfl
@[simp] theorem State.timeout_result (s : State) : s.timeout.result = s.result := rfl
@[simp] theorem State.timeout_trace (s : State) : s.timeout.trace = s.trace := rfl
@[simp] theorem State.timeout_returned (s : State) : s.timeout.returned = s.returned := rfl
@[simp] theorem State.timeout_encoding (s : State) : s.timeout.encoding = s.encoding := rfl
@[simp] theorem State.timeout_caller (s : State) : s.timeout.caller = s.caller := rfl
@[simp] theorem State.timeout_latched (s : State) : s.timeout.latched = s.latched := rfl
@[simp] theorem State.timeout_errLatched (s : State) : s.timeout.errLatched = true := rfl
@[simp] theorem State.timeout_held (s : State) : s.timeout.held = s.held := rfl
@[simp] theorem State.timeout_answers (s : State) : s.timeout.answers = s.answers := rfl
@[simp] theorem State.timeout_draws (s : State) : s.timeout.draws = s.draws := rfl
@[simp] theorem State.timeout_resetAsserted (s : State) : s.timeout.resetAsserted = s.resetAsserted := rfl

/-! ### `State.timeoutKeepingErr` -/

@[simp] theorem State.timeoutKeepingErr_cfg (s : State) : s.timeoutKeepingErr.cfg = s.cfg := rfl
@[simp] theorem State.timeoutKeepingErr_fsm (s : State) : s.timeoutKeepingErr.fsm = .aborted := rfl
@[simp] theorem State.timeoutKeepingErr_addr7 (s : State) : s.timeoutKeepingErr.addr7 = s.addr7 := rfl
@[simp] theorem State.timeoutKeepingErr_buf (s : State) : s.timeoutKeepingErr.buf = s.buf := rfl
@[simp] theorem State.timeoutKeepingErr_n (s : State) : s.timeoutKeepingErr.n = s.n := rfl
@[simp] theorem State.timeoutKeepingErr_i (s : State) : s.timeoutKeepingErr.i = s.i := rfl
@[simp] theorem State.timeoutKeepingErr_err (s : State) : s.timeoutKeepingErr.err = s.err := rfl
@[simp] theorem State.timeoutKeepingErr_rcount (s : State) : s.timeoutKeepingErr.rcount = s.rcount := rfl
@[simp] theorem State.timeoutKeepingErr_wcount (s : State) : s.timeoutKeepingErr.wcount = s.wcount := rfl
@[simp] theorem State.timeoutKeepingErr_result (s : State) : s.timeoutKeepingErr.result = s.result := rfl
@[simp] theorem State.timeoutKeepingErr_trace (s : State) : s.timeoutKeepingErr.trace = s.trace := rfl
@[simp] theorem State.timeoutKeepingErr_returned (s : State) : s.timeoutKeepingErr.returned = s.returned := rfl
@[simp] theorem State.timeoutKeepingErr_encoding (s : State) : s.timeoutKeepingErr.encoding = s.encoding := rfl
@[simp] theorem State.timeoutKeepingErr_caller (s : State) : s.timeoutKeepingErr.caller = s.caller := rfl
@[simp] theorem State.timeoutKeepingErr_latched (s : State) : s.timeoutKeepingErr.latched = s.latched := rfl
@[simp] theorem State.timeoutKeepingErr_errLatched (s : State) : s.timeoutKeepingErr.errLatched = s.errLatched := rfl
@[simp] theorem State.timeoutKeepingErr_held (s : State) : s.timeoutKeepingErr.held = s.held := rfl
@[simp] theorem State.timeoutKeepingErr_answers (s : State) : s.timeoutKeepingErr.answers = s.answers := rfl
@[simp] theorem State.timeoutKeepingErr_draws (s : State) : s.timeoutKeepingErr.draws = s.draws := rfl
@[simp] theorem State.timeoutKeepingErr_resetAsserted (s : State) : s.timeoutKeepingErr.resetAsserted = s.resetAsserted := rfl

/-! ### `State.forceStop` -/

@[simp] theorem State.forceStop_cfg (s : State) : s.forceStop.cfg = s.cfg := rfl
@[simp] theorem State.forceStop_fsm (s : State) : s.forceStop.fsm = s.fsm := rfl
@[simp] theorem State.forceStop_addr7 (s : State) : s.forceStop.addr7 = s.addr7 := rfl
@[simp] theorem State.forceStop_buf (s : State) : s.forceStop.buf = s.buf := rfl
@[simp] theorem State.forceStop_n (s : State) : s.forceStop.n = s.n := rfl
@[simp] theorem State.forceStop_i (s : State) : s.forceStop.i = s.i := rfl
@[simp] theorem State.forceStop_err (s : State) : s.forceStop.err = s.err := rfl
@[simp] theorem State.forceStop_rcount (s : State) : s.forceStop.rcount = s.rcount + 1 := rfl
@[simp] theorem State.forceStop_wcount (s : State) : s.forceStop.wcount = s.wcount := rfl
@[simp] theorem State.forceStop_result (s : State) : s.forceStop.result = s.result := rfl
@[simp] theorem State.forceStop_trace (s : State) : s.forceStop.trace = s.trace ++ [.forcedStop, .delay s.cfg.params.recoveryDelay] := by simp [State.forceStop, State.emit]
@[simp] theorem State.forceStop_returned (s : State) : s.forceStop.returned = s.returned := rfl
@[simp] theorem State.forceStop_encoding (s : State) : s.forceStop.encoding = s.encoding := rfl
@[simp] theorem State.forceStop_caller (s : State) : s.forceStop.caller = s.caller := rfl
@[simp] theorem State.forceStop_latched (s : State) : s.forceStop.latched = s.latched := rfl
@[simp] theorem State.forceStop_errLatched (s : State) : s.forceStop.errLatched = s.errLatched := rfl
@[simp] theorem State.forceStop_held (s : State) : s.forceStop.held = s.held := rfl
@[simp] theorem State.forceStop_answers (s : State) : s.forceStop.answers = s.answers := rfl
@[simp] theorem State.forceStop_draws (s : State) : s.forceStop.draws = s.draws := rfl
@[simp] theorem State.forceStop_resetAsserted (s : State) : s.forceStop.resetAsserted = s.resetAsserted := rfl

/-! ### `State.emitSetup` -/

@[simp] theorem State.emitSetup_cfg (s : State) (hz : Nat) : (s.emitSetup hz).cfg = s.cfg := rfl
@[simp] theorem State.emitSetup_fsm (s : State) (hz : Nat) : (s.emitSetup hz).fsm = s.fsm := rfl
@[simp] theorem State.emitSetup_addr7 (s : State) (hz : Nat) : (s.emitSetup hz).addr7 = s.addr7 := rfl
@[simp] theorem State.emitSetup_buf (s : State) (hz : Nat) : (s.emitSetup hz).buf = s.buf := rfl
@[simp] theorem State.emitSetup_n (s : State) (hz : Nat) : (s.emitSetup hz).n = s.n := rfl
@[simp] theorem State.emitSetup_i (s : State) (hz : Nat) : (s.emitSetup hz).i = s.i := rfl
@[simp] theorem State.emitSetup_err (s : State) (hz : Nat) : (s.emitSetup hz).err = s.err := rfl
@[simp] theorem State.emitSetup_rcount (s : State) (hz : Nat) : (s.emitSetup hz).rcount = s.rcount := rfl
@[simp] theorem State.emitSetup_wcount (s : State) (hz : Nat) : (s.emitSetup hz).wcount = s.wcount := rfl
@[simp] theorem State.emitSetup_result (s : State) (hz : Nat) : (s.emitSetup hz).result = s.result := rfl
@[simp] theorem State.emitSetup_trace (s : State) (hz : Nat) : (s.emitSetup hz).trace = s.trace ++ [.adapterConfigure s.cfg.params.sysClockHz, .adapterSetFrequency hz, .adapterEnable true] := by simp [State.emitSetup, State.emit]
@[simp] theorem State.emitSetup_returned (s : State) (hz : Nat) : (s.emitSetup hz).returned = s.returned := rfl
@[simp] theorem State.emitSetup_encoding (s : State) (hz : Nat) : (s.emitSetup hz).encoding = s.encoding := rfl
@[simp] theorem State.emitSetup_caller (s : State) (hz : Nat) : (s.emitSetup hz).caller = s.caller := rfl
@[simp] theorem State.emitSetup_latched (s : State) (hz : Nat) : (s.emitSetup hz).latched = s.latched := rfl
@[simp] theorem State.emitSetup_errLatched (s : State) (hz : Nat) : (s.emitSetup hz).errLatched = s.errLatched := rfl
@[simp] theorem State.emitSetup_held (s : State) (hz : Nat) : (s.emitSetup hz).held = s.held := rfl
@[simp] theorem State.emitSetup_answers (s : State) (hz : Nat) : (s.emitSetup hz).answers = s.answers := rfl
@[simp] theorem State.emitSetup_draws (s : State) (hz : Nat) : (s.emitSetup hz).draws = s.draws := rfl
@[simp] theorem State.emitSetup_resetAsserted (s : State) (hz : Nat) : (s.emitSetup hz).resetAsserted = s.resetAsserted := rfl

/-! ### `State.finishInit` -/

@[simp] theorem State.finishInit_cfg (s : State) (r : Result) : (s.finishInit r).cfg = s.cfg := rfl
@[simp] theorem State.finishInit_fsm (s : State) (r : Result) : (s.finishInit r).fsm = .ready := rfl
@[simp] theorem State.finishInit_addr7 (s : State) (r : Result) : (s.finishInit r).addr7 = s.addr7 := rfl
@[simp] theorem State.finishInit_buf (s : State) (r : Result) : (s.finishInit r).buf = s.buf := rfl
@[simp] theorem State.finishInit_n (s : State) (r : Result) : (s.finishInit r).n = s.n := rfl
@[simp] theorem State.finishInit_i (s : State) (r : Result) : (s.finishInit r).i = s.i := rfl
@[simp] theorem State.finishInit_err (s : State) (r : Result) : (s.finishInit r).err = s.err := rfl
@[simp] theorem State.finishInit_rcount (s : State) (r : Result) : (s.finishInit r).rcount = s.rcount := rfl
@[simp] theorem State.finishInit_wcount (s : State) (r : Result) : (s.finishInit r).wcount = s.wcount := rfl
@[simp] theorem State.finishInit_result (s : State) (r : Result) : (s.finishInit r).result = r := rfl
@[simp] theorem State.finishInit_trace (s : State) (r : Result) : (s.finishInit r).trace = s.trace := rfl
@[simp] theorem State.finishInit_returned (s : State) (r : Result) : (s.finishInit r).returned = s.returned ++ [r] := rfl
@[simp] theorem State.finishInit_encoding (s : State) (r : Result) : (s.finishInit r).encoding = s.encoding := rfl
@[simp] theorem State.finishInit_caller (s : State) (r : Result) : (s.finishInit r).caller = .requester := rfl
@[simp] theorem State.finishInit_latched (s : State) (r : Result) : (s.finishInit r).latched = s.latched := rfl
@[simp] theorem State.finishInit_errLatched (s : State) (r : Result) : (s.finishInit r).errLatched = s.errLatched := rfl
@[simp] theorem State.finishInit_held (s : State) (r : Result) : (s.finishInit r).held = s.held := rfl
@[simp] theorem State.finishInit_answers (s : State) (r : Result) : (s.finishInit r).answers = s.answers := rfl
@[simp] theorem State.finishInit_draws (s : State) (r : Result) : (s.finishInit r).draws = s.draws := rfl
@[simp] theorem State.finishInit_resetAsserted (s : State) (r : Result) : (s.finishInit r).resetAsserted = s.resetAsserted := rfl

/-! ### `State.beginEncode` -/

@[simp] theorem State.beginEncode_cfg (s : State) (f : Family) (unit : Nat) (text : List Byte) : (s.beginEncode f unit text).cfg = s.cfg := rfl
@[simp] theorem State.beginEncode_fsm (s : State) (f : Family) (unit : Nat) (text : List Byte) : (s.beginEncode f unit text).fsm = s.fsm := rfl
@[simp] theorem State.beginEncode_addr7 (s : State) (f : Family) (unit : Nat) (text : List Byte) : (s.beginEncode f unit text).addr7 = s.addr7 := rfl
@[simp] theorem State.beginEncode_buf (s : State) (f : Family) (unit : Nat) (text : List Byte) : (s.beginEncode f unit text).buf = s.buf := rfl
@[simp] theorem State.beginEncode_n (s : State) (f : Family) (unit : Nat) (text : List Byte) : (s.beginEncode f unit text).n = s.n := rfl
@[simp] theorem State.beginEncode_i (s : State) (f : Family) (unit : Nat) (text : List Byte) : (s.beginEncode f unit text).i = s.i := rfl
@[simp] theorem State.beginEncode_err (s : State) (f : Family) (unit : Nat) (text : List Byte) : (s.beginEncode f unit text).err = s.err := rfl
@[simp] theorem State.beginEncode_rcount (s : State) (f : Family) (unit : Nat) (text : List Byte) : (s.beginEncode f unit text).rcount = s.rcount := rfl
@[simp] theorem State.beginEncode_wcount (s : State) (f : Family) (unit : Nat) (text : List Byte) : (s.beginEncode f unit text).wcount = s.wcount := rfl
@[simp] theorem State.beginEncode_result (s : State) (f : Family) (unit : Nat) (text : List Byte) : (s.beginEncode f unit text).result = s.result := rfl
@[simp] theorem State.beginEncode_trace (s : State) (f : Family) (unit : Nat) (text : List Byte) : (s.beginEncode f unit text).trace = s.trace := rfl
@[simp] theorem State.beginEncode_returned (s : State) (f : Family) (unit : Nat) (text : List Byte) : (s.beginEncode f unit text).returned = s.returned := rfl
@[simp] theorem State.beginEncode_encoding (s : State) (f : Family) (unit : Nat) (text : List Byte) : (s.beginEncode f unit text).encoding = some (EncodeRun.start f unit text) := rfl
@[simp] theorem State.beginEncode_caller (s : State) (f : Family) (unit : Nat) (text : List Byte) : (s.beginEncode f unit text).caller = s.caller := rfl
@[simp] theorem State.beginEncode_latched (s : State) (f : Family) (unit : Nat) (text : List Byte) : (s.beginEncode f unit text).latched = s.latched := rfl
@[simp] theorem State.beginEncode_errLatched (s : State) (f : Family) (unit : Nat) (text : List Byte) : (s.beginEncode f unit text).errLatched = s.errLatched := rfl
@[simp] theorem State.beginEncode_held (s : State) (f : Family) (unit : Nat) (text : List Byte) : (s.beginEncode f unit text).held = s.held := rfl
@[simp] theorem State.beginEncode_answers (s : State) (f : Family) (unit : Nat) (text : List Byte) : (s.beginEncode f unit text).answers = s.answers := rfl
@[simp] theorem State.beginEncode_draws (s : State) (f : Family) (unit : Nat) (text : List Byte) : (s.beginEncode f unit text).draws = s.draws := rfl
@[simp] theorem State.beginEncode_resetAsserted (s : State) (f : Family) (unit : Nat) (text : List Byte) : (s.beginEncode f unit text).resetAsserted = s.resetAsserted := rfl

end Sys2Proof.Machine
end

