-- ==== Sys2Proof/Laws/Ops.lean ====
section
/-! SUPPORT. What each shared operation can do, said once: sampling, waiting, aborting, accepting, taking a request,
the loop of an initialise request, and the step of each state of `fsm`. -/

namespace Sys2Proof.Machine

/-! ### Samples and waits -/

@[simp] theorem State.answer_wcount (s : State) (k : Nat) (sig : Signal) :
    State.answer { s with wcount := k } sig = s.answer sig := rfl

@[simp] theorem State.answer_forceStop (s : State) (sig : Signal) : s.forceStop.answer sig = s.answer sig := rfl

/-- A settled answer is what the sample reads. -/
theorem State.answer_cons (s : State) (sig : Signal) (b : Bool) (rest : List Bool) (h : s.answers = b :: rest) :
    s.answer sig = b := by simp [State.answer, h]

theorem State.reading_latched (s : State) (k : Out) (h : s.latched = true) : s.reading k = k := by
  simp [State.reading, h]

/-- A wait whose sample is 1 (R191). -/
theorem State.wait_true (s : State) (sig : Signal) (k : State → Out) (tm : State → State)
    (h : s.answer sig = true) : s.wait sig k tm = k { s.sampled with wcount := 0 } := by
  simp [State.wait, h]

/-- A wait whose sample is 0, with no limit (R191). -/
theorem State.wait_false_unbounded (s : State) (sig : Signal) (k : State → Out) (tm : State → State)
    (h : s.answer sig = false) (hw : s.cfg.params.waitLimit = none) : s.wait sig k tm = .next s.sampled := by
  simp [State.wait, h, hw]

/-- A wait whose sample is 0, with a limit (R191). -/
theorem State.wait_false_bounded (s : State) (sig : Signal) (k : State → Out) (tm : State → State) (limit : Nat)
    (h : s.answer sig = false) (hw : s.cfg.params.waitLimit = some limit) (hl : s.latched = true) :
    s.wait sig k tm =
      .next (if limit ≤ s.wcount + 1 then tm { s.sampled with wcount := s.wcount + 1 }
        else { s.sampled with wcount := s.wcount + 1 }) := by
  simp only [State.wait, h, hw, State.reading, hl]
  by_cases hle : limit ≤ s.wcount + 1 <;> simp [hle]

/-- Everything a wait can do when it gives a next state (R191). -/
theorem State.wait_cases {s t : State} {sig : Signal} {k : State → Out} {tm : State → State}
    (h : s.wait sig k tm = .next t) :
    (s.answer sig = true ∧ k { s.sampled with wcount := 0 } = .next t) ∨
    (s.answer sig = false ∧ s.cfg.params.waitLimit = none ∧ t = s.sampled) ∨
    (∃ limit, s.answer sig = false ∧ s.cfg.params.waitLimit = some limit ∧ s.wcount + 1 < limit ∧
      t = { s.sampled with wcount := s.wcount + 1 }) ∨
    (∃ limit, s.answer sig = false ∧ s.cfg.params.waitLimit = some limit ∧ limit ≤ s.wcount + 1 ∧
      t = tm { s.sampled with wcount := s.wcount + 1 }) := by
  cases ha : s.answer sig with
  | true => rw [State.wait_true _ _ _ _ ha] at h; exact .inl ⟨rfl, h⟩
  | false =>
    cases hw : s.cfg.params.waitLimit with
    | none =>
      rw [State.wait_false_unbounded _ _ _ _ ha hw] at h
      exact .inr (.inl ⟨rfl, rfl, by injection h with h; exact h.symm⟩)
    | some limit =>
      have hl : s.latched = true := by
        by_contra hn
        simp [State.wait, ha, hw, State.reading, hn] at h
      rw [State.wait_false_bounded _ _ _ _ limit ha hw hl] at h
      injection h with h
      by_cases hle : limit ≤ s.wcount + 1
      · rw [if_pos hle] at h
        exact .inr (.inr (.inr ⟨limit, rfl, rfl, hle, h.symm⟩))
      · rw [if_neg hle] at h
        exact .inr (.inr (.inl ⟨limit, rfl, rfl, by omega, h.symm⟩))

/-! ### Requests -/

theorem State.accepts_iff (s : State) : s.accepts = true ↔ s.fsm = .ready ∧ s.encoding = none := by
  simp [State.accepts]

/-- The meaning of a write request is one operation, whichever identifier selects its row (R242). -/
theorem exec_write (id : DisplayId) (text : List Byte) (s : State) :
    exec (decode (.request (.write id text))) s = s.writeRequest id text := by
  have h : id = 0 ∨ id = 1 ∨ id = 2 ∨ id = 3 ∨ id = 4 ∨ id = 5 ∨ id = 6 ∨ id = 7 := by
    revert id
    decide
  rcases h with h | h | h | h | h | h | h | h <;> subst h <;> rfl

theorem exec_init (hz : Nat) (s : State) : exec (decode (.request (.init hz))) s = execInit hz s := rfl

/-- The unit `route` gives exists, so the framing's range check always passes (R171, R173, R243). -/
theorem route_unit_lt {id : DisplayId} {f : Family} {u : Nat} (h : route id = some (f, u)) : u < f.units := by
  unfold route at h
  split at h <;> cases h <;> decide

/-- A frame of an existing unit is framed: a descriptor of at most 13 bytes for one of the two addresses results, never
the argument check. -/
theorem frameFor_unit (p : Params) {f : Family} {u : Nat} (h : u < f.units) (frame : List Byte) :
    ∃ d, frameFor p f u frame = .descriptor d ∧ d.bytes.length ≤ bufLen ∧ p.usesAddr d.addr7 = true := by
  cases f with
  | small =>
    have hu : ¬ 2 < u := by simp [Family.units] at h; omega
    refine ⟨_, by simp only [frameFor, smallFamilyFrame, hu, if_false]; rfl, ?_, by simp [Params.usesAddr]⟩
    simp only [List.length_append, List.length_cons, List.length_nil, List.length_take, bufLen]
    omega
  | large =>
    have hu : ¬ 1 < u := by simp [Family.units] at h; omega
    refine ⟨_, by simp only [frameFor, largeFamilyFrame, hu, if_false]; rfl, ?_, by simp [Params.usesAddr]⟩
    simp only [List.length_append, List.length_cons, List.length_nil, List.length_take, bufLen]
    omega

/-- The end of a write of an existing unit is an accept. -/
theorem State.submitFrame_unit (s : State) {f : Family} {u : Nat} (h : u < f.units) (frame : List Byte) :
    ∃ d, d.bytes.length ≤ bufLen ∧ s.cfg.params.usesAddr d.addr7 = true ∧
      s.submitFrame f u frame = { s with caller := .requester }.accept d := by
  obtain ⟨d, hd, hl, ha⟩ := frameFor_unit s.cfg.params h frame
  exact ⟨d, hl, ha, by simp only [State.submitFrame, hd]⟩

/-- An item a configuration lists is admitted. -/
theorem config_init_admitted (c : Config) : c.params.initSequence.all c.params.admitsItem = true := by
  have h := c.ok
  simp only [Params.valid, Bool.and_eq_true] at h
  exact h.2

/-- Everything a write request can do (R242). -/
theorem State.writeRequest_cases {s t : State} {id : DisplayId} {text : List Byte}
    (h : s.writeRequest id text = .next t) :
    (s.accepts = false ∧ t = s.present (.write id text)) ∨
    (s.accepts = true ∧ route id = none ∧ t = s.returnResult (.error .invalidArgument)) ∨
    (∃ f u, s.accepts = true ∧ route id = some (f, u) ∧ s.cfg.params.admitsText text = true ∧
      t = s.submitFrame f u (encodeText s.cfg.params text f)) := by
  unfold State.writeRequest at h
  cases ha : s.accepts with
  | false => rw [ha] at h; injection h with h; exact .inl ⟨rfl, h.symm⟩
  | true =>
    rw [ha] at h
    simp only [if_true] at h
    split at h
    · injection h with h
      exact .inr (.inl ⟨rfl, ‹_›, h.symm⟩)
    · split at h
      · injection h with h
        exact .inr (.inr ⟨_, _, rfl, ‹_›, ‹_›, h.symm⟩)
      · cases h

/-- Everything taking a held request can do (R241): one of them is taken, and only `held` and the model's counter
move. -/
theorem State.takeHeld_cases {s s' : State} {r : Request} (h : s.takeHeld = some (r, s')) :
    s.held[Config.freePick s.draws % s.held.length]? = some r ∧
      s' = { s with
        held := s.held.eraseIdx (Config.freePick s.draws % s.held.length)
        draws := if s.held.length = 1 then s.draws else s.draws + 1 } := by
  unfold State.takeHeld at h
  split at h
  · cases h
  · rename_i heq
    cases h
    simp [heq, Nat.mod_one]
  · rename_i r r' rest heq
    cases h
    have hlt : Config.freePick s.draws % (r :: r' :: rest).length < (r :: r' :: rest).length :=
      Nat.mod_lt _ (by simp)
    rw [heq, List.getElem?_eq_getElem hlt, List.getD_eq_getElem _ _ hlt]
    simp

/-- What taking a request leaves: a held request is gone, and only the counter of draws may have moved besides. -/
theorem State.takeHeld_leaves {s s' : State} {r : Request} (h : s.takeHeld = some (r, s')) :
    ∃ k d, k < s.held.length ∧ s' = { s with held := s.held.eraseIdx k, draws := d } := by
  obtain ⟨hr, hs⟩ := State.takeHeld_cases h
  obtain ⟨hk, -⟩ := List.getElem?_eq_some_iff.1 hr
  exact ⟨_, _, hk, hs⟩

/-! ### The loop of an initialise request -/

/-- Leading delays are emitted, and the loop goes on with the rest (R250). -/
theorem State.runInit_delays (first : Result) (ds : List Nat) (rest : List InitItem) (s : State) :
    State.runInit first (ds.map InitItem.delay ++ rest) s =
      State.runInit first rest { s with trace := s.trace ++ ds.map Event.delay } := by
  induction ds generalizing s with
  | nil => simp
  | cons d ds ih => simp [State.runInit, ih, State.emit]

/-- A list of items is some leading delays, and then nothing or a transaction. -/
theorem initItems_cases (items : List InitItem) :
    ∃ ds : List Nat, items = ds.map InitItem.delay ∨
      ∃ a bytes rest, items = ds.map InitItem.delay ++ .transaction a bytes :: rest := by
  induction items with
  | nil => exact ⟨[], .inl rfl⟩
  | cons item items ih =>
    cases item with
    | delay d =>
      obtain ⟨ds, h | ⟨a, bytes, rest, h⟩⟩ := ih
      · exact ⟨d :: ds, .inl (by rw [h]; rfl)⟩
      · exact ⟨d :: ds, .inr ⟨a, bytes, rest, by rw [h]; rfl⟩⟩
    | transaction a bytes => exact ⟨[], .inr ⟨a, bytes, items, rfl⟩⟩

/-- Everything the loop can do (R250): after some delays it ends, or accepts the next transaction. -/
theorem State.runInit_cases (first : Result) (items : List InitItem) (s : State) :
    ∃ ds : List Nat,
      (items = ds.map InitItem.delay ∧
        State.runInit first items s = { s with trace := s.trace ++ ds.map Event.delay }.finishInit first) ∨
      ∃ a bytes rest, items = ds.map InitItem.delay ++ .transaction a bytes :: rest ∧
        State.runInit first items s =
          { s with trace := s.trace ++ ds.map Event.delay, caller := .initialise first rest }.accept ⟨a, bytes⟩ := by
  obtain ⟨ds, h | ⟨a, bytes, rest, h⟩⟩ := initItems_cases items
  · refine ⟨ds, .inl ⟨h, ?_⟩⟩
    have := State.runInit_delays first ds [] s
    rw [List.append_nil] at this
    rw [h, this]
    rfl
  · exact ⟨ds, .inr ⟨a, bytes, rest, h, by rw [h, State.runInit_delays]; rfl⟩⟩

/-! ### The step of each state of `fsm` -/

/-- With no reset asserted and no encode under way, a step outside READY is the transactor's. -/
theorem step_transactor (s : State) (hr : s.resetAsserted = false) (he : s.encoding = none) (hf : s.fsm ≠ .ready) :
    step s = s.transactorStep := by
  simp [step, hr, State.runStep, he, hf]

/-- With no reset asserted and no encode under way, a step in READY takes a held request. -/
theorem step_ready (s : State) (hr : s.resetAsserted = false) (he : s.encoding = none) (hf : s.fsm = .ready) :
    step s = s.readyStep := by
  simp [step, hr, State.runStep, he, hf]

/-- Inside an encode a step is the encoder's. -/
theorem step_encoding (s : State) (e : EncodeRun) (hr : s.resetAsserted = false) (he : s.encoding = some e) :
    step s = s.encodeStep e := by
  simp [step, hr, State.runStep, he]

/-- The send of a data byte acts on `buf[i]` (R200). -/
theorem State.withDataByte_eq (s : State) (k : Byte → Out) (b : Byte) (hl : s.latched = true) (hi : s.i < s.n)
    (hb : s.buf[s.i]? = some b) : s.withDataByte k = k b := by
  simp [State.withDataByte, State.reading, hl, hi, hb]

/-- Everything the send of a data byte needs to give a next state (R200). -/
theorem State.withDataByte_cases {s t : State} {k : Byte → Out} (h : s.withDataByte k = .next t) :
    ∃ b, s.latched = true ∧ s.i < s.n ∧ s.buf[s.i]? = some b ∧ k b = .next t := by
  unfold State.withDataByte State.reading at h
  split at h
  · split at h
    · split at h
      · exact ⟨_, ‹_›, ‹_›, ‹_›, h⟩
      · cases h
    · cases h
  · cases h

/-- Everything a read of a transactor register needs to give a next state (R29). -/
theorem State.reading_cases {s t : State} {k : Out} (h : s.reading k = .next t) :
    s.latched = true ∧ k = .next t := by
  unfold State.reading at h
  split at h
  · exact ⟨‹_›, h⟩
  · cases h

/-- The end of a transaction: back to the requester, or on with the initialise request (R207, R208, R250). -/
theorem State.endTransaction_cases (s : State) (r : Result) :
    (s.caller = .requester ∧ s.endTransaction r = (s.returnResult r).setFsm .ready) ∨
    ∃ first rest, s.caller = .initialise first rest ∧
      s.endTransaction r = ({ s with result := r }.setFsm .ready).resumeInit first rest r := by
  unfold State.endTransaction
  cases hc : s.caller with
  | requester => exact .inl ⟨rfl, rfl⟩
  | initialise first rest => exact .inr ⟨first, rest, rfl, rfl⟩

end Sys2Proof.Machine
end

