-- ==== Sys2Proof/Laws/PerInstr.lean ====
section
/-! SUPPORT. Statements about all instructions as syntax, made per instruction: one lemma for each constructor. -/

namespace Sys2Proof.Laws

/-- The decoder reads back what the encoder writes for a well-formed instruction. -/
def RoundTrip.Statement (i : Instr) : Prop := i.wellFormed = true → decode (encode i) = i

theorem RoundTrip.period : RoundTrip.Statement .period := fun _ => by decide
theorem RoundTrip.comma : RoundTrip.Statement .comma := fun _ => by decide
theorem RoundTrip.glyph0 : RoundTrip.Statement .glyph0 := fun _ => by decide
theorem RoundTrip.glyph1 : RoundTrip.Statement .glyph1 := fun _ => by decide
theorem RoundTrip.glyph2 : RoundTrip.Statement .glyph2 := fun _ => by decide
theorem RoundTrip.glyph3 : RoundTrip.Statement .glyph3 := fun _ => by decide
theorem RoundTrip.glyph4 : RoundTrip.Statement .glyph4 := fun _ => by decide
theorem RoundTrip.glyph5 : RoundTrip.Statement .glyph5 := fun _ => by decide
theorem RoundTrip.glyph6 : RoundTrip.Statement .glyph6 := fun _ => by decide
theorem RoundTrip.glyph7 : RoundTrip.Statement .glyph7 := fun _ => by decide
theorem RoundTrip.glyph8 : RoundTrip.Statement .glyph8 := fun _ => by decide
theorem RoundTrip.glyph9 : RoundTrip.Statement .glyph9 := fun _ => by decide
theorem RoundTrip.glyphA (lower : Bool) : RoundTrip.Statement (.glyphA lower) := fun _ => by
  cases lower <;> decide
theorem RoundTrip.glyphB (lower : Bool) : RoundTrip.Statement (.glyphB lower) := fun _ => by
  cases lower <;> decide
theorem RoundTrip.glyphC (lower : Bool) : RoundTrip.Statement (.glyphC lower) := fun _ => by
  cases lower <;> decide
theorem RoundTrip.glyphD (lower : Bool) : RoundTrip.Statement (.glyphD lower) := fun _ => by
  cases lower <;> decide
theorem RoundTrip.glyphE (lower : Bool) : RoundTrip.Statement (.glyphE lower) := fun _ => by
  cases lower <;> decide
theorem RoundTrip.glyphF (lower : Bool) : RoundTrip.Statement (.glyphF lower) := fun _ => by
  cases lower <;> decide
theorem RoundTrip.glyphG (lower : Bool) : RoundTrip.Statement (.glyphG lower) := fun _ => by
  cases lower <;> decide
theorem RoundTrip.glyphH (lower : Bool) : RoundTrip.Statement (.glyphH lower) := fun _ => by
  cases lower <;> decide
theorem RoundTrip.glyphI (lower : Bool) : RoundTrip.Statement (.glyphI lower) := fun _ => by
  cases lower <;> decide
theorem RoundTrip.glyphJ (lower : Bool) : RoundTrip.Statement (.glyphJ lower) := fun _ => by
  cases lower <;> decide
theorem RoundTrip.glyphL (lower : Bool) : RoundTrip.Statement (.glyphL lower) := fun _ => by
  cases lower <;> decide
theorem RoundTrip.glyphN (lower : Bool) : RoundTrip.Statement (.glyphN lower) := fun _ => by
  cases lower <;> decide
theorem RoundTrip.glyphO (lower : Bool) : RoundTrip.Statement (.glyphO lower) := fun _ => by
  cases lower <;> decide
theorem RoundTrip.glyphP (lower : Bool) : RoundTrip.Statement (.glyphP lower) := fun _ => by
  cases lower <;> decide
theorem RoundTrip.glyphS (lower : Bool) : RoundTrip.Statement (.glyphS lower) := fun _ => by
  cases lower <;> decide
theorem RoundTrip.glyphT (lower : Bool) : RoundTrip.Statement (.glyphT lower) := fun _ => by
  cases lower <;> decide
theorem RoundTrip.glyphU (lower : Bool) : RoundTrip.Statement (.glyphU lower) := fun _ => by
  cases lower <;> decide
theorem RoundTrip.glyphY (lower : Bool) : RoundTrip.Statement (.glyphY lower) := fun _ => by
  cases lower <;> decide
theorem RoundTrip.glyphSpace : RoundTrip.Statement .glyphSpace := fun _ => by decide
theorem RoundTrip.glyphHyphen : RoundTrip.Statement .glyphHyphen := fun _ => by decide

/-- A code that no other row matches decodes to the catch-all row. -/
theorem decodeChar_of_not_named (c : Byte) : (Instr.invalid c).wellFormed = true → decodeChar c = .invalid c := by
  revert c
  decide

theorem RoundTrip.invalid (c : Byte) : RoundTrip.Statement (.invalid c) := decodeChar_of_not_named c
theorem RoundTrip.writeLarge0 (text : List Byte) : RoundTrip.Statement (.writeLarge0 text) := fun _ => rfl
theorem RoundTrip.writeLarge1 (text : List Byte) : RoundTrip.Statement (.writeLarge1 text) := fun _ => rfl
theorem RoundTrip.writeSmall0 (text : List Byte) : RoundTrip.Statement (.writeSmall0 text) := fun _ => rfl
theorem RoundTrip.writeSmall1 (text : List Byte) : RoundTrip.Statement (.writeSmall1 text) := fun _ => rfl
theorem RoundTrip.writeSmall2 (text : List Byte) : RoundTrip.Statement (.writeSmall2 text) := fun _ => rfl
theorem RoundTrip.writeId5 (text : List Byte) : RoundTrip.Statement (.writeId5 text) := fun _ => rfl
theorem RoundTrip.writeId6 (text : List Byte) : RoundTrip.Statement (.writeId6 text) := fun _ => rfl
theorem RoundTrip.writeId7 (text : List Byte) : RoundTrip.Statement (.writeId7 text) := fun _ => rfl
theorem RoundTrip.init (hz : Nat) : RoundTrip.Statement (.init hz) := fun _ => rfl

end Sys2Proof.Laws
end

