-- ==== Sys2Proof/Laws/Transactor.lean ====
section
/-! SUPPORT. Everything a transactor step can do, said once: `TxStep s t` lists the moves, guards included, and
`State.transactorStep_cases` says that a step that gives a next state is one of them. -/

namespace Sys2Proof.Machine

/-- `s` after the true sample that ends a wait (R191). -/
def State.waited (s : State) : State := { s.sampled with wcount := 0 }

/-- `s` after a false sample that is counted (R191). -/
def State.polled (s : State) : State := { s.sampled with wcount := s.wcount + 1 }

/-- The moves of the transactor (R193 to R205, R207, R208). -/
inductive TxStep (s : State) : State → Prop where
  | idle (hf : s.fsm = .idle) :
    TxStep s (s.sampled.setFsm (if s.answer .busIdle then .startingIssue else .recovering))
  | recovered (hf : s.fsm = .recovering) (ha : s.answer .busIdle = true) :
    TxStep s (s.forceStop.sampled.setFsm .startingIssue)
  | recoveryTimeout (k : Nat) (hf : s.fsm = .recovering) (hl : s.latched = true) (ha : s.answer .busIdle = false)
    (hk : s.cfg.params.recoveryLimit = some k) (hle : k ≤ s.rcount + 1) : TxStep s s.forceStop.sampled.timeout
  | recoveryAgain (hf : s.fsm = .recovering) (ha : s.answer .busIdle = false)
    (hk : ∀ k, s.cfg.params.recoveryLimit = some k → s.rcount + 1 < k) : TxStep s s.forceStop.sampled
  | startIssue (hf : s.fsm = .startingIssue) :
    TxStep s ({ s.emit .start with wcount := 0 }.setFsm .startingWaitStart)
  | started (hf : s.fsm = .startingWaitStart) (ha : s.answer .startDone = true)
    (hok : s.sampled.answer .startOk = true) : TxStep s (s.waited.sampled.setFsm .addressWaitReady)
  | startFailed (hf : s.fsm = .startingWaitStart) (ha : s.answer .startDone = true)
    (hok : s.sampled.answer .startOk = false) : TxStep s (s.waited.sampled.raiseAbort .busStartFailure false)
  | addressSent (hf : s.fsm = .addressWaitReady) (hl : s.latched = true) (ha : s.answer .txReady = true) :
    TxStep s ((s.waited.emit (.send (addressByte s.addr7))).setFsm .addressWaitComplete)
  | addressAcked (hf : s.fsm = .addressWaitComplete) (hl : s.latched = true) (ha : s.answer .txComplete = true)
    (hack : s.sampled.answer .ack = true) (hn : 0 < s.n) :
    TxStep s ({ s.waited.sampled with i := 0 }.setFsm .dataWaitReady)
  | addressAckedEmpty (hf : s.fsm = .addressWaitComplete) (hl : s.latched = true) (ha : s.answer .txComplete = true)
    (hack : s.sampled.answer .ack = true) (hn : s.n = 0) : TxStep s (s.waited.sampled.setFsm .stoppingIssue)
  | addressNack (hf : s.fsm = .addressWaitComplete) (ha : s.answer .txComplete = true)
    (hack : s.sampled.answer .ack = false) :
    TxStep s (s.waited.sampled.raiseAbort .addressNackFailure s.cfg.params.stopOnAddrNack)
  | dataSent (b : Byte) (hf : s.fsm = .dataWaitReady) (hl : s.latched = true) (hi : s.i < s.n)
    (hb : s.buf[s.i]? = some b) (ha : s.answer .txReady = true) :
    TxStep s ((s.waited.emit (.send b)).setFsm .dataWaitComplete)
  | dataAcked (hf : s.fsm = .dataWaitComplete) (hl : s.latched = true) (ha : s.answer .txComplete = true)
    (hack : s.sampled.answer .ack = true) :
    TxStep s ({ s.waited.sampled with i := s.i + 1 }.setFsm
      (if s.i + 1 < s.n then .dataWaitReady else .stoppingIssue))
  | dataNack (hf : s.fsm = .dataWaitComplete) (hl : s.latched = true) (ha : s.answer .txComplete = true)
    (hack : s.sampled.answer .ack = false) :
    TxStep s (s.waited.sampled.raiseAbort (.dataNackFailure (BitVec.ofNat 8 s.i)) s.cfg.params.stopOnDataNack)
  | stopIssue (hf : s.fsm = .stoppingIssue) :
    TxStep s ({ s.emit .stop with wcount := 0 }.setFsm .stoppingWaitStop)
  | stopped (hf : s.fsm = .stoppingWaitStop) (ha : s.answer .stopComplete = true) :
    TxStep s (s.waited.setFsm .done)
  | abortStopIssue (hf : s.fsm = .abortStoppingIssue) :
    TxStep s ({ s.emit .stop with wcount := 0 }.setFsm .abortStoppingWaitStop)
  | abortStopped (hf : s.fsm = .abortStoppingWaitStop) (ha : s.answer .stopComplete = true) :
    TxStep s (s.waited.setFsm .aborted)
  | waiting (hf : s.fsm.waits = true) (hw : s.cfg.params.waitLimit = none) : TxStep s s.sampled
  | polling (limit : Nat) (hf : s.fsm.waits = true) (hw : s.cfg.params.waitLimit = some limit)
    (hlt : s.wcount + 1 < limit) : TxStep s s.polled
  | waitTimeout (limit : Nat) (hf : s.fsm.waits = true) (hne : s.fsm ≠ .abortStoppingWaitStop)
    (hw : s.cfg.params.waitLimit = some limit) (hle : limit ≤ s.wcount + 1) : TxStep s s.polled.timeout
  | abortStopTimeout (limit : Nat) (hf : s.fsm = .abortStoppingWaitStop)
    (hw : s.cfg.params.waitLimit = some limit) (hle : limit ≤ s.wcount + 1) : TxStep s s.polled.timeoutKeepingErr
  | done (hf : s.fsm = .done) : TxStep s (s.endTransaction .success)
  | aborted (hf : s.fsm = .aborted) (hl : s.errLatched = true) : TxStep s (s.endTransaction (.error s.err))

/-- What a wait of the transactor can do, given what its true branch does. -/
theorem TxStep.of_wait {s t : State} {sig : Signal} {k : State → Out} {tm : State → State}
    (h : s.wait sig k tm = .next t) (hf : s.fsm.waits = true)
    (hk : s.answer sig = true → k s.waited = .next t → TxStep s t)
    (htm : (tm = State.timeout ∧ s.fsm ≠ .abortStoppingWaitStop) ∨
      (tm = State.timeoutKeepingErr ∧ s.fsm = .abortStoppingWaitStop)) : TxStep s t := by
  obtain ⟨ha, h⟩ | ⟨_, hw, rfl⟩ | ⟨limit, _, hw, hlt, rfl⟩ | ⟨limit, _, hw, hle, rfl⟩ := State.wait_cases h
  · exact hk ha h
  · exact .waiting hf hw
  · exact .polling limit hf hw hlt
  · obtain ⟨rfl, hne⟩ | ⟨rfl, he⟩ := htm
    · exact .waitTimeout limit hf hne hw hle
    · exact .abortStopTimeout limit he hw hle

/-- A recovery iteration is one of three moves. -/
theorem TxStep.of_recovering {s t : State} (h : s.stepRecovering = .next t) (hf : s.fsm = .recovering) : TxStep s t := by
  have hs : t = s.forceStop.recoverySample ∧ (s.cfg.params.recoveryLimit ≠ none → s.latched = true) := by
    unfold State.stepRecovering at h
    split at h
    · rename_i hk
      exact ⟨by injection h with h; exact h.symm, fun hn => absurd hk hn⟩
    · obtain ⟨hl, h⟩ := State.reading_cases h
      exact ⟨by injection h with h; exact h.symm, fun _ => hl⟩
  obtain ⟨rfl, hl⟩ := hs
  unfold State.recoverySample
  rw [State.answer_forceStop]
  cases ha : s.answer .busIdle with
  | true => exact .recovered hf ha
  | false =>
    have hc : s.forceStop.cfg.params.recoveryLimit = s.cfg.params.recoveryLimit := rfl
    cases hk : s.cfg.params.recoveryLimit with
    | none =>
      simp only [State.recoveryExhausted, hc, hk]
      exact .recoveryAgain hf ha (by simp [hk])
    | some k =>
      by_cases hle : k ≤ s.rcount + 1
      · have hle' : k ≤ s.forceStop.rcount := hle
        simp only [State.recoveryExhausted, hc, hk, hle', decide_true, if_true]
        exact .recoveryTimeout k hf (hl (by simp [hk])) ha hk hle
      · have hle' : ¬ k ≤ s.forceStop.rcount := hle
        simp only [State.recoveryExhausted, hc, hk, hle', decide_false]
        exact .recoveryAgain hf ha (by rw [hk]; rintro k' ⟨⟩; omega)

/-- A transactor step that gives a next state is one of the moves. -/
theorem State.transactorStep_cases {s t : State} (h : s.transactorStep = .next t) : TxStep s t := by
  unfold State.transactorStep at h
  split at h <;> rename_i hf
  · cases h
  · cases h
    exact .idle hf
  · exact .of_recovering h hf
  · cases h
    exact .startIssue hf
  · refine .of_wait h (by rw [hf]; rfl) (fun ha h => ?_) (.inl ⟨rfl, by rw [hf]; decide⟩)
    cases hok : s.sampled.answer .startOk with
    | true =>
      have : s.waited.answer .startOk = true := hok
      simp only [this, if_true] at h
      cases h
      exact .started hf ha hok
    | false =>
      have : s.waited.answer .startOk = false := hok
      simp only [this] at h
      cases h
      exact .startFailed hf ha hok
  · refine .of_wait h (by rw [hf]; rfl) (fun ha h => ?_) (.inl ⟨rfl, by rw [hf]; decide⟩)
    obtain ⟨hl, h⟩ := State.reading_cases h
    cases h
    exact .addressSent hf hl ha
  · refine .of_wait h (by rw [hf]; rfl) (fun ha h => ?_) (.inl ⟨rfl, by rw [hf]; decide⟩)
    cases hack : s.sampled.answer .ack with
    | true =>
      have : s.waited.answer .ack = true := hack
      simp only [this, if_true] at h
      obtain ⟨hl, h⟩ := State.reading_cases h
      by_cases hn : 0 < s.n
      · have hn' : 0 < s.waited.n := hn
        rw [if_pos hn'] at h
        cases h
        exact .addressAcked hf hl ha hack hn
      · have hn' : ¬ 0 < s.waited.n := hn
        rw [if_neg hn'] at h
        cases h
        exact .addressAckedEmpty hf hl ha hack (by omega)
    | false =>
      have : s.waited.answer .ack = false := hack
      simp only [this] at h
      cases h
      exact .addressNack hf ha hack
  · obtain ⟨b, hl, hi, hb, h⟩ := State.withDataByte_cases h
    refine .of_wait h (by rw [hf]; rfl) (fun ha h => ?_) (.inl ⟨rfl, by rw [hf]; decide⟩)
    cases h
    exact .dataSent b hf hl hi hb ha
  · refine .of_wait h (by rw [hf]; rfl) (fun ha h => ?_) (.inl ⟨rfl, by rw [hf]; decide⟩)
    obtain ⟨hl, h⟩ := State.reading_cases h
    cases hack : s.sampled.answer .ack with
    | true =>
      have : s.waited.answer .ack = true := hack
      simp only [this, if_true] at h
      cases h
      exact .dataAcked hf hl ha hack
    | false =>
      have : s.waited.answer .ack = false := hack
      simp only [this] at h
      cases h
      exact .dataNack hf hl ha hack
  · cases h
    exact .stopIssue hf
  · refine .of_wait h (by rw [hf]; rfl) (fun ha h => ?_) (.inl ⟨rfl, by rw [hf]; decide⟩)
    cases h
    exact .stopped hf ha
  · cases h
    exact .abortStopIssue hf
  · refine .of_wait h (by rw [hf]; rfl) (fun ha h => ?_) (.inr ⟨rfl, hf⟩)
    cases h
    exact .abortStopped hf ha
  · cases h
    exact .done hf
  · unfold State.stepAborted at h
    split at h
    · cases h
      exact .aborted hf ‹_›
    · cases h

end Sys2Proof.Machine
end

