-- ==== Sys2Proof/Tests/Slice0.lean ====
section
/-! SUPPORT. The model's own tests: what the well-formedness checks refuse, the words of the opcode table decoded, the
spec's vectors (95_test_vectors.md) on single steps, and a witness for the hypotheses of every obligation. -/

open Sys2Proof Sys2Proof.Machine Sys2Proof.Certificates

namespace Sys2Proof.Tests

/-! ### A small configuration and small states -/

/-- Parameters that differ in every byte. The values are the tests' own: the spec leaves them open (D7, D8). -/
def params : Params where
  smallAddr := 0x38
  largeAddr := 0x39
  resetDataPointer := 0xA0
  commandFlag := 0xA1
  lineDevAddr0 := 0xA2
  lineDevAddr1 := 0xA3
  dataPointerZero := 0xA4
  dataFlag := 0xA5
  paddingByte := 0xA6
  commaBitSmall := [0, 1, 2, 3]
  commaBitLarge := [0, 1, 2, 3, 4, 5]
  recoveryDelay := 7
  recoveryLimit := some 3
  waitLimit := some 2
  stopOnAddrNack := false
  stopOnDataNack := false
  textMax := some 8
  initSequence := [.delay 5, .transaction 0x39 [0xEE]]
  initStopOnError := false
  sysClockHz := 48

/-- A configuration with these parameters. -/
def cfg : Config := ⟨params, by decide⟩

/-- The same with no limit on recovery, waits and texts. -/
def cfgUnbounded : Config :=
  ⟨{ params with recoveryLimit := none, waitLimit := none, textMax := none }, by decide⟩

/-- The same with an empty power-on sequence. -/
def cfgNoInit : Config := ⟨{ params with initSequence := [] }, by decide⟩

/-- The same with both stop parameters true and an initialise request that stops at an error. -/
def cfgStops : Config :=
  ⟨{ params with stopOnAddrNack := true, stopOnDataNack := true, initStopOnError := true }, by decide⟩

/-- The state after reset with that configuration. -/
def ready : State := State.resetWith cfg

/-- A write of "1.23" to SMALL0 just accepted, with a script of answers (V-T1's descriptor). -/
def accepted (c : Config) (answers : List Bool) : State :=
  { (State.resetWith c).accept ⟨0x38, [0xA0, 0x60, 0x00, 0x0C, 0xB7, 0x9E, 0x00]⟩ with answers := answers }

/-- That transaction in a later state of `fsm`. -/
def inFsm (c : Config) (f : Fsm) (answers : List Bool) : State := (accepted c answers).setFsm f

/-- An encode under way: family, text, cursor, and the index of the next character. -/
def encoding (f : Family) (text : List Byte) (cursor : Nat) (scan : Int) : EncodeRun :=
  { EncodeRun.start f 0 text with cursor := cursor, scan := scan }

/-- The state inside an encode. -/
def inEncode (e : EncodeRun) : State := { ready with encoding := some e }

/-- The state a step leads to. -/
def nextOf : Out → Option State
  | .next t => some t
  | .fault _ => none
  | .refused _ => none

/-- Whether a step stops with a fault or a refusal of these. -/
def faults (r : Fault) : Out → Bool
  | .fault r' => r == r'
  | .next _ => false
  | .refused _ => false

def refuses (r : Refusal) : Out → Bool
  | .refused r' => r == r'
  | .next _ => false
  | .fault _ => false

/-- The frame after the step of a table word: the character alone, in a fresh SmallFamily encode. -/
def frameAfter (w : Nat) : Option (List Byte) :=
  ((nextOf (step (ready.withFetchWord 8 w))).bind (fun t => t.encoding)).map (fun e => e.frame)

/-- `addr7` and the first `n` bytes of `buf` after one step. -/
def descriptorAfter (o : Out) : Option (Addr7 × List Byte) :=
  (nextOf o).map (fun t => (t.addr7, t.buf.take t.n))

/-! ### WellFormed: ill-formed terms are refused -/

theorem test_wellFormed_refuses_named_codes :
    (Instr.invalid 0x2E).wellFormed = false ∧ (Instr.invalid 0x2C).wellFormed = false ∧
    (Instr.invalid 0x20).wellFormed = false ∧ (Instr.invalid 0x2D).wellFormed = false ∧
    (Instr.invalid 0x30).wellFormed = false ∧ (Instr.invalid 0x39).wellFormed = false ∧
    (Instr.invalid 0x41).wellFormed = false ∧ (Instr.invalid 0x79).wellFormed = false := by decide

theorem test_wellFormed_takes_other_codes :
    (Instr.invalid 0x4B).wellFormed = true ∧ (Instr.invalid 0x2F).wellFormed = true ∧
    (Instr.invalid 0x3A).wellFormed = true ∧ (Instr.invalid 0x00).wellFormed = true ∧
    (Instr.invalid 0xFF).wellFormed = true := by decide

theorem test_config_refuses_equal_addresses :
    Config.ofParams { params with largeAddr := 0x38 } = none ∧
    Config.ofParams { params with lineDevAddr1 := 0xA2 } = none := by decide

theorem test_config_refuses_comma_bits :
    Config.ofParams { params with commaBitSmall := [0, 1, 2] } = none ∧
    Config.ofParams { params with commaBitSmall := [0, 1, 2, 2] } = none ∧
    Config.ofParams { params with commaBitLarge := [0, 1, 2, 3, 4, 8] } = none ∧
    (Config.ofParams { params with commaBitLarge := [7, 6, 5, 4, 3, 2] }).isSome = true := by decide

theorem test_config_refuses_zero_bounds :
    Config.ofParams { params with recoveryLimit := some 0 } = none ∧
    Config.ofParams { params with waitLimit := some 0 } = none ∧
    Config.ofParams { params with textMax := some 0 } = none := by decide

theorem test_config_refuses_long_item :
    Config.ofParams { params with initSequence := [.transaction 0x38 (List.replicate 14 0)] } = none ∧
    (Config.ofParams { params with initSequence := [.transaction 0x38 (List.replicate 13 0)] }).isSome = true := by
  decide

/-- A power-on transaction to a third address (R43). -/
theorem test_config_refuses_third_address :
    Config.ofParams { params with initSequence := [.delay 1, .transaction 0x10 [0xEE]] } = none ∧
    (Config.ofParams { params with initSequence := [.transaction 0x38 [], .transaction 0x39 []] }).isSome = true := by
  decide

/-! ### Decode: the words of the opcode table -/

theorem test_decode_punctuation :
    decodeTableWord 8 0b00101110 = some .period ∧ decodeTableWord 8 0b00101100 = some .comma := by decide

theorem test_decode_digits :
    decodeTableWord 8 0b00110000 = some .glyph0 ∧ decodeTableWord 8 0b00110001 = some .glyph1 ∧
    decodeTableWord 8 0b00110010 = some .glyph2 ∧ decodeTableWord 8 0b00110011 = some .glyph3 ∧
    decodeTableWord 8 0b00110100 = some .glyph4 ∧ decodeTableWord 8 0b00110101 = some .glyph5 ∧
    decodeTableWord 8 0b00110110 = some .glyph6 ∧ decodeTableWord 8 0b00110111 = some .glyph7 ∧
    decodeTableWord 8 0b00111000 = some .glyph8 ∧ decodeTableWord 8 0b00111001 = some .glyph9 := by decide

theorem test_decode_letters_upper :
    decodeTableWord 8 0b01000001 = some (.glyphA false) ∧ decodeTableWord 8 0b01000010 = some (.glyphB false) ∧
    decodeTableWord 8 0b01000011 = some (.glyphC false) ∧ decodeTableWord 8 0b01000100 = some (.glyphD false) ∧
    decodeTableWord 8 0b01000101 = some (.glyphE false) ∧ decodeTableWord 8 0b01000110 = some (.glyphF false) ∧
    decodeTableWord 8 0b01000111 = some (.glyphG false) ∧ decodeTableWord 8 0b01001000 = some (.glyphH false) ∧
    decodeTableWord 8 0b01001001 = some (.glyphI false) ∧ decodeTableWord 8 0b01001010 = some (.glyphJ false) ∧
    decodeTableWord 8 0b01001100 = some (.glyphL false) ∧ decodeTableWord 8 0b01001110 = some (.glyphN false) ∧
    decodeTableWord 8 0b01001111 = some (.glyphO false) ∧ decodeTableWord 8 0b01010000 = some (.glyphP false) ∧
    decodeTableWord 8 0b01010011 = some (.glyphS false) ∧ decodeTableWord 8 0b01010100 = some (.glyphT false) ∧
    decodeTableWord 8 0b01010101 = some (.glyphU false) ∧ decodeTableWord 8 0b01011001 = some (.glyphY false) := by
  decide

theorem test_decode_letters_lower :
    decodeTableWord 8 0b01100001 = some (.glyphA true) ∧ decodeTableWord 8 0b01100010 = some (.glyphB true) ∧
    decodeTableWord 8 0b01100011 = some (.glyphC true) ∧ decodeTableWord 8 0b01100100 = some (.glyphD true) ∧
    decodeTableWord 8 0b01100101 = some (.glyphE true) ∧ decodeTableWord 8 0b01100110 = some (.glyphF true) ∧
    decodeTableWord 8 0b01100111 = some (.glyphG true) ∧ decodeTableWord 8 0b01101000 = some (.glyphH true) ∧
    decodeTableWord 8 0b01101001 = some (.glyphI true) ∧ decodeTableWord 8 0b01101010 = some (.glyphJ true) ∧
    decodeTableWord 8 0b01101100 = some (.glyphL true) ∧ decodeTableWord 8 0b01101110 = some (.glyphN true) ∧
    decodeTableWord 8 0b01101111 = some (.glyphO true) ∧ decodeTableWord 8 0b01110000 = some (.glyphP true) ∧
    decodeTableWord 8 0b01110011 = some (.glyphS true) ∧ decodeTableWord 8 0b01110100 = some (.glyphT true) ∧
    decodeTableWord 8 0b01110101 = some (.glyphU true) ∧ decodeTableWord 8 0b01111001 = some (.glyphY true) := by
  decide

theorem test_decode_symbols_and_invalid :
    decodeTableWord 8 0b00100000 = some .glyphSpace ∧ decodeTableWord 8 0b00101101 = some .glyphHyphen ∧
    decodeTableWord 8 0b01001011 = some (.invalid 0x4B) ∧ decodeTableWord 8 0b00001101 = some (.invalid 0x0D) ∧
    decodeTableWord 8 0b10110000 = some (.invalid 0xB0) ∧ decode (.char 0x00) = .invalid 0x00 := by decide

theorem test_decode_requests :
    decodeTableWord 8 0b000 = some (.writeLarge0 []) ∧ decodeTableWord 8 0b001 = some (.writeLarge1 []) ∧
    decodeTableWord 8 0b010 = some (.writeSmall0 []) ∧ decodeTableWord 8 0b011 = some (.writeSmall1 []) ∧
    decodeTableWord 8 0b100 = some (.writeSmall2 []) ∧ decodeTableWord 8 0b101 = some (.writeId5 []) ∧
    decodeTableWord 8 0b110 = some (.writeId6 []) ∧ decodeTableWord 8 0b111 = some (.writeId7 []) ∧
    decodeTableWord 0 0 = some (.init 0) ∧ decode (.request (.init 100000)) = .init 100000 := by decide

theorem test_decode_rejects_by_name :
    decodeBytes [0x30, 0x31] = .error .notADisplayId ∧
    decodeBytes [0x03, 0x31, 0x32] = .ok (.writeSmall1 [0x31, 0x32]) := by
  constructor <;> rfl

/-! ### Characters: the frames of V-C1 and V-E -/

theorem test_step_digits :
    frameAfter 0x30 = some [0, 0, 0, 0x7E, 0] ∧ frameAfter 0x31 = some [0, 0, 0, 0x0C, 0] ∧
    frameAfter 0x32 = some [0, 0, 0, 0xB6, 0] ∧ frameAfter 0x33 = some [0, 0, 0, 0x9E, 0] ∧
    frameAfter 0x34 = some [0, 0, 0, 0xCC, 0] ∧ frameAfter 0x35 = some [0, 0, 0, 0xDA, 0] ∧
    frameAfter 0x36 = some [0, 0, 0, 0xFA, 0] ∧ frameAfter 0x37 = some [0, 0, 0, 0x0E, 0] ∧
    frameAfter 0x38 = some [0, 0, 0, 0xFE, 0] ∧ frameAfter 0x39 = some [0, 0, 0, 0xDE, 0] := by decide

theorem test_step_letters_A_to_J :
    frameAfter 0x41 = some [0, 0, 0, 0xEE, 0] ∧ frameAfter 0x62 = some [0, 0, 0, 0xF8, 0] ∧
    frameAfter 0x43 = some [0, 0, 0, 0x72, 0] ∧ frameAfter 0x64 = some [0, 0, 0, 0xBC, 0] ∧
    frameAfter 0x45 = some [0, 0, 0, 0xF2, 0] ∧ frameAfter 0x66 = some [0, 0, 0, 0xE2, 0] ∧
    frameAfter 0x47 = some [0, 0, 0, 0xDE, 0] ∧ frameAfter 0x68 = some [0, 0, 0, 0xEC, 0] ∧
    frameAfter 0x49 = some [0, 0, 0, 0x0C, 0] ∧ frameAfter 0x6A = some [0, 0, 0, 0x1C, 0] := by decide

theorem test_step_letters_L_to_Y :
    frameAfter 0x4C = some [0, 0, 0, 0x70, 0] ∧ frameAfter 0x6E = some [0, 0, 0, 0xA8, 0] ∧
    frameAfter 0x4F = some [0, 0, 0, 0x7E, 0] ∧ frameAfter 0x70 = some [0, 0, 0, 0xE6, 0] ∧
    frameAfter 0x53 = some [0, 0, 0, 0xDA, 0] ∧ frameAfter 0x74 = some [0, 0, 0, 0xF0, 0] ∧
    frameAfter 0x55 = some [0, 0, 0, 0x7C, 0] ∧ frameAfter 0x79 = some [0, 0, 0, 0xDC, 0] := by decide

theorem test_step_symbols_and_skipped :
    frameAfter 0x20 = some [0, 0, 0, 0x00, 0] ∧ frameAfter 0x2D = some [0, 0, 0, 0x80, 0] ∧
    frameAfter 0x4B = some [0, 0, 0, 0x00, 0] ∧ frameAfter 0x2E = some [0, 0, 0, 0x00, 0] ∧
    frameAfter 0x2C = some [0, 0, 0, 0x00, 0] := by decide

/-- V-S1, V-S2, V-E20, V-E37, V-E39: periods, commas, overflow, both families. -/
theorem test_frames :
    encodeText params [0x31, 0x2E, 0x32, 0x33] .small = [0x00, 0x0C, 0xB7, 0x9E, 0x00] ∧
    encodeText params [0x20, 0x35, 0x2C, 0x39, 0x35] .small = [0x00, 0xDA, 0xDE, 0xDA, 0x04] ∧
    encodeText params [0x31, 0x2E, 0x32, 0x33, 0x34, 0x35] .small = [0xB7, 0x9E, 0xCC, 0xDA, 0x00] ∧
    encodeText params [0x31, 0x2C, 0x32, 0x33, 0x34, 0x2E, 0x35] .large =
      [0x00, 0x0C, 0xB6, 0x9E, 0xCC, 0xDB, 0x04, 0x00] ∧
    encodeText params [0x2C, 0x31] .large = [0x00, 0x00, 0x00, 0x00, 0x00, 0x0C, 0x20, 0x00] := by decide

/-- The comma flag follows `COMMA_BIT`, not the slot's number (R65). -/
theorem test_comma_bit_is_a_parameter :
    encodeText { params with commaBitSmall := [7, 6, 5, 4] } [0x35, 0x2C, 0x39] .small =
      [0x00, 0x00, 0xDA, 0xDE, 0x10] := by decide

/-- The mux view of two vectors with flags and overflow: V-E21, V-E41. -/
theorem test_mux_view :
    muxFrame params [0x31, 0x2E, 0x32, 0x2E, 0x33, 0x2E, 0x34, 0x2E, 0x35, 0x2E] .small =
      [0xB7, 0x9F, 0xCD, 0xDB, 0x00] ∧
    muxFrame params [0x31, 0x32, 0x2E, 0x33, 0x34, 0x35, 0x2C, 0x36] .large =
      [0x0C, 0xB6, 0x9F, 0xCC, 0xDA, 0xFA, 0x20, 0x00] := by decide

/-! ### Requests: V-R3 to V-R10, V-F -/

theorem test_write_small :
    descriptorAfter (exec (.writeSmall0 [0x31, 0x2E, 0x32, 0x33]) ready) =
      some (0x38, [0xA0, 0x60, 0x00, 0x0C, 0xB7, 0x9E, 0x00]) ∧
    descriptorAfter (exec (.writeSmall1 [0x31, 0x32]) ready) =
      some (0x38, [0xA0, 0x61, 0x00, 0x00, 0x0C, 0xB6, 0x00]) ∧
    descriptorAfter (exec (.writeSmall2 [0x2D]) ready) =
      some (0x38, [0xA0, 0x62, 0x00, 0x00, 0x00, 0x80, 0x00]) := by decide

theorem test_write_large :
    descriptorAfter (exec (.writeLarge0 [0x31, 0x2C, 0x32, 0x33, 0x34, 0x2E, 0x35]) ready) =
      some (0x39, [0xA1, 0xA2, 0xA1, 0xA4, 0xA5, 0x00, 0x0C, 0xB6, 0x9E, 0xCC, 0xDB, 0x04, 0xA6]) ∧
    descriptorAfter (exec (.writeLarge1 []) ready) =
      some (0x39, [0xA1, 0xA3, 0xA1, 0xA4, 0xA5, 0x00, 0x00, 0x00, 0x00, 0x00, 0x00, 0x00, 0xA6]) := by decide

theorem test_write_reserved :
    (nextOf (step (ready.withFetchWord 8 5))).map (fun t => (t.fsm, t.result.word, t.trace)) =
      some (.ready, 0x100, []) ∧
    (nextOf (exec (.writeId6 [0x31]) ready)).map (fun t => (t.returned, t.trace)) =
      some ([.error .invalidArgument], []) ∧
    (nextOf (exec (.writeId7 [0x31]) ready)).map (fun t => (t.fsm, t.latched)) = some (.ready, false) := by decide

theorem test_init :
    (nextOf (exec (.init 100000) (State.resetWith cfgNoInit))).map (fun t => (t.trace, t.result, t.fsm)) =
      some ([.adapterConfigure 48, .adapterSetFrequency 100000, .adapterEnable true], .success, .ready) ∧
    (nextOf (exec (.init 100000) ready)).map (fun t => (t.trace.drop 3, t.addr7, t.buf.take t.n, t.fsm)) =
      some ([.delay 5], 0x39, [0xEE], .idle) := by decide

theorem test_request_while_busy_is_held :
    (nextOf (exec (.writeSmall0 [0x31]) (accepted cfg []))).map (fun t => (t.held, t.fsm, t.trace)) =
      some ([.write 2 [0x31]], .idle, []) := by decide

theorem test_text_over_the_bound :
    refuses .textTooLong (exec (.writeSmall0 (List.replicate 9 0x31)) ready) = true ∧
    (nextOf (exec (.writeSmall0 (List.replicate 8 0x31)) ready)).isSome = true := by decide

theorem test_framing_range_checks :
    smallFamilyFrame params 3 [] = .invalidArgument ∧ largeFamilyFrame params 2 [] = .invalidArgument := by decide

/-! ### The transactor, reset and the quiescent end: V-T, V-X -/

theorem test_transactor_sends :
    (nextOf (step (inFsm cfg .addressWaitReady [true]))).map (fun t => (t.trace, t.fsm)) =
      some ([.send 0x70], .addressWaitComplete) ∧
    (nextOf (step { inFsm cfg .dataWaitReady [true] with i := 1 })).map (fun t => (t.trace, t.fsm)) =
      some ([.send 0x60], .dataWaitComplete) := by decide

theorem test_data_nack :
    (nextOf (step { inFsm cfg .dataWaitComplete [true, false] with i := 2 })).map
      (fun t => (t.fsm, (Result.error t.err).word)) = some (.aborted, 0x402) ∧
    (nextOf (step { inFsm cfgStops .dataWaitComplete [true, false] with i := 6 })).map
      (fun t => (t.fsm, t.err)) = some (.abortStoppingIssue, .dataNackFailure 6) := by decide

theorem test_recovery_samples_before_the_limit :
    (nextOf (step { inFsm cfg .recovering [true] with rcount := 2 })).map (fun t => (t.trace, t.fsm)) =
      some ([.forcedStop, .delay 7], .startingIssue) ∧
    (nextOf (step { inFsm cfg .recovering [false] with rcount := 2 })).map (fun t => (t.err, t.fsm)) =
      some (.timeoutError, .aborted) := by decide

theorem test_wait_limit :
    (nextOf (step { inFsm cfg .stoppingWaitStop [false] with wcount := 1 })).map (fun t => (t.err, t.fsm)) =
      some (.timeoutError, .aborted) ∧
    (nextOf (step { inFsm cfg .stoppingWaitStop [true] with wcount := 1 })).map (fun t => (t.wcount, t.fsm)) =
      some (0, .done) := by decide

theorem test_abort_stop_timeout_keeps_the_nack :
    (nextOf (step { inFsm cfg .abortStoppingWaitStop [false] with
      wcount := 1, err := .addressNackFailure, errLatched := true })).map (fun t => (t.err, t.fsm)) =
      some (.addressNackFailure, .aborted) := by decide

theorem test_reset_in_a_transaction :
    (nextOf (step { inFsm cfg .dataWaitComplete [] with resetAsserted := true })).map
      (fun t => (t.fsm, t.result.word, t.trace, t.returned)) = some (.ready, 0x700, [], []) := by decide

theorem test_quiescent : refuses .quiescent (step ready) = true := by decide

theorem test_unwritten_register :
    faults .unspecifiedRead (step { ready with fsm := .addressWaitReady, answers := [true] }) = true ∧
    faults .unspecifiedRead (step { ready with fsm := .stoppingWaitStop, answers := [false] }) = true ∧
    faults .unspecifiedRead (step { ready with fsm := .aborted }) = true := by decide

theorem test_step_that_reads_no_register_runs :
    (nextOf (step { State.resetWith cfgUnbounded with fsm := .addressWaitReady, answers := [false] })).map
      (fun t => (t.fsm, t.trace)) = some (.addressWaitReady, []) ∧
    (nextOf (step { State.resetWith cfgUnbounded with fsm := .recovering, answers := [false] })).map
      (fun t => (t.fsm, t.trace.length)) = some (.recovering, 2) ∧
    (nextOf (step { ready with fsm := .addressWaitComplete, answers := [true, false] })).map (fun t => t.err) =
      some .addressNackFailure := by decide

/-! ### Witnesses: states and operands that meet the hypotheses of the obligations -/

/-- `CaseFoldsLettersOnly`, `InvalidRomEntries`, `ByteLayouts`, `DecodeMap`: the codes their clauses speak of. -/
theorem witness_codes :
    (0x41 : Byte) ∈ letterCodes ∧ (0x59 : Byte) ∈ letterCodes ∧
    ((0x4B : Byte).getLsbD 5 = false ∧ (0x4B : Byte) ∉ letterCodes) ∧ (0x80 : Byte) ≤ 0x80 ∧ (0x80 : Byte) ≤ 0xFF ∧
    namedCode 0x00 = false ∧ namedCode 0xFF = false ∧ namedCode 0x4B = false ∧
    wordValid (romWord 0x30) = true ∧ wordValid (romWord 0x4B) = false ∧ (0x30 : Byte) ≠ 0x2E := by decide

/-- `DecodeEncodeAgree`, `ResultCodes`: well-formed instructions, and a word with the reserved status. -/
theorem witness_syntax :
    (Instr.glyphA true).wellFormed = true ∧ (Instr.invalid 0x00).wellFormed = true ∧
    (Instr.writeId7 [0x00]).wellFormed = true ∧ (0x6FF : BitVec 11).extractLsb' 8 3 = 6 := by decide

/-- `BadParametersRejected`: both sides of the equivalence are met. -/
theorem witness_parameters :
    (Config.ofParams params).isSome = true ∧ (Config.ofParams { params with waitLimit := some 0 }).isSome = false := by
  decide

/-- The character statements (`PeriodSetsDpFlag`, `CommaSetsCommaFlag`, the three `Places` ones,
`InvalidCharacterIsSkipped`, `CharacterRowsFollowTheRom`): an encode with a character left, at the sentinel, at slot 1
and with no slot left, in both families. -/
theorem witness_encode_under_way :
    (inEncode (encoding .small [0x31] 4 0)).encoding = some (encoding .small [0x31] 4 0) ∧
    (encoding .small [0x31] 4 0).nextChar.isSome = true ∧ (encoding .small [0x31] 4 0).cursor = 4 ∧
    (encoding .large [0x2E, 0x31] 1 0).nextChar.isSome = true ∧ (encoding .large [0x2E, 0x31] 1 0).cursor = 1 ∧
    (encoding .small [0x31] 0 0).nextChar.isSome = true ∧ (encoding .small [0x31] 0 0).cursor = 0 := by decide

/-- `CommaSetsCommaFlag`: parameters with the default layout of the comma flags. -/
theorem witness_default_comma_bits : params.commaBitSmall = [0, 1, 2, 3] := by decide

/-- `CharacterStepsLeaveTheRest`: a character's step gives a next state, for a comma, another code, and an Invalid
one. -/
theorem witness_character_runs :
    (nextOf (exec (decode (.char 0x2C)) (inEncode (encoding .small [0x2C] 3 0)))).isSome = true ∧
    (nextOf (exec (decode (.char 0x31)) (inEncode (encoding .small [0x31] 4 0)))).isSome = true ∧
    (nextOf (exec (decode (.char 0x4B)) (inEncode (encoding .small [0x4B] 4 0)))).isSome = true ∧
    classOf 0x4B = .invalid ∧ (encoding .small [0x31] 4 0).cursor ≤ Family.small.cap := by decide

/-- `CharacterNeedsAnEncode`: no encode, one whose text has ended, and one that has halted. -/
theorem witness_no_character :
    ready.encoding = none ∧ (encoding .small [0x31] 3 (-1)).nextChar = none ∧
    { encoding .small [0x31] 0 0 with halted := true }.nextChar = none := by decide

/-- `EncodedFrameShape`: a slot with no glyph, a set comma bit, and the LargeFamily byte 7. -/
theorem witness_frame_shape :
    (0 < Family.small.cap ∧ (glyphIndices [0x31, 0x32, 0x33]).length < Family.small.cap - 0) ∧
    (encodeText params [0x35, 0x2C, 0x39] .small)[Family.small.cap]? = some 0x08 ∧
    (0x08 : Byte).getLsbD 3 = true := by decide

/-- `GlyphsTakeTheNextSlot`: the first and the last slot to take, for a digit, a space and a lower-case letter. -/
theorem witness_glyphs :
    (romWord 0x31).getLsbD 7 = true ∧ (romWord 0x20).getLsbD 7 = true ∧ (romWord 0x79).getLsbD 7 = true ∧
    (0x31 : Byte) ≠ 0x2E ∧ (0x31 : Byte) ≠ 0x2C ∧
    (encoding .small [0x31] 4 0).nextChar.isSome = true ∧ 0 < (encoding .small [0x31] 4 0).cursor ∧
    (encoding .large [0x31] 1 0).nextChar.isSome = true ∧ 0 < (encoding .large [0x31] 1 0).cursor := by decide

/-- `OverflowDropsTheLeft`: a glyph with no slot left, and one glyph more than the family has slots. -/
theorem witness_overflow :
    classOf 0x31 = .glyph 0x06 ∧ (encoding .small [0x31] 0 0).nextChar.isSome = true ∧
    (encoding .small [0x31] 0 0).cursor = 0 ∧
    (glyphIndices [0x31, 0x32, 0x33, 0x34]).length = Family.small.cap ∧
    Family.small.cap < (glyphIndices [0x31, 0x32, 0x33, 0x34, 0x35]).length ∧
    Family.large.cap < (glyphIndices [0x31, 0x32, 0x33, 0x34, 0x35, 0x36, 0x37]).length := by decide

/-- The request statements (`CharacterStepsMakeTheWrite`, `WriteSmallIsAccepted`, `WriteLargeIsAccepted`,
`ReservedIdIsRejected`, `RequestsLeaveTheRest`): an accepting state, a text at the bound, every identifier's route. -/
theorem witness_accepting :
    (ready.fsm = .ready ∧ ready.encoding = none) ∧ ready.resetAsserted = false ∧
    ready.cfg.params.admitsText (List.replicate 8 0x31) = true ∧
    (State.resetWith cfgUnbounded).cfg.params.admitsText (List.replicate 9 0x31) = true ∧
    route 0 = some (.large, 0) ∧ route 1 = some (.large, 1) ∧ route 2 = some (.small, 0) ∧
    route 3 = some (.small, 1) ∧ route 4 = some (.small, 2) ∧
    (nextOf (exec (decode (.request (.write 2 [0x31]))) ready)).isSome = true ∧
    (nextOf (exec (decode (.request (.init 1))) ready)).isSome = true := by decide

/-- `TextOverTheBoundIsRefused`: one character over the bound. -/
theorem witness_long_text :
    ready.cfg.params.textMax = some 8 ∧ 8 < (List.replicate 9 (0x31 : Byte)).length := by decide

/-- `SmallFamilyFraming`, `LargeFamilyFraming`: the ends of both ranges. -/
theorem witness_framing : (0 ≤ 2 ∧ 2 ≤ 2 ∧ 2 < 3) ∧ (0 ≤ 1 ∧ 1 ≤ 1 ∧ 1 < 2) := by decide

/-- `BusyBlockHoldsRequests`: a transaction under way, and an encode under way. -/
theorem witness_busy :
    ¬ ((accepted cfg []).fsm = .ready ∧ (accepted cfg []).encoding = none) ∧
    ¬ ((inEncode (encoding .small [] 4 (-1))).fsm = .ready ∧
      (inEncode (encoding .small [] 4 (-1))).encoding = none) := by decide

/-- `ReadyTakesOneHeldRequest`: some requests held, and none. -/
theorem witness_held :
    (ready.present (.init 1)).held ≠ [] ∧ ((ready.present (.init 1)).present (.write 5 [])).held ≠ [] ∧
    ready.held = [] ∧ ready.resetAsserted = false ∧ ready.fsm = .ready ∧ ready.encoding = none := by decide

/-- `InitEmitsSetupThenRuns`: both shapes of `INIT_SEQUENCE`. -/
theorem witness_init :
    (State.resetWith cfgNoInit).cfg.params.initSequence = [].map InitItem.delay ∧
    ready.cfg.params.initSequence = [5].map InitItem.delay ++ .transaction 0x39 [0xEE] :: [] := by decide

/-- `InitKeepsTheFirstError`: its transaction done, or aborted, with a transaction left or only delays, and with
either value of `INIT_STOP_ON_ERROR`. -/
theorem witness_init_resumes :
    (let s := { inFsm cfg .done [] with caller := .initialise .success [.delay 1, .transaction 0x38 []] };
      s.resetAsserted = false ∧ s.encoding = none ∧ s.fsm = .done ∧
      s.caller = .initialise .success ([1].map InitItem.delay ++ [.transaction 0x38 []])) ∧
    (let s := { inFsm cfgStops .aborted [] with
        caller := .initialise (.error .timeoutError) [.delay 1], err := .busStartFailure, errLatched := true };
      s.resetAsserted = false ∧ s.encoding = none ∧ s.fsm = .aborted ∧ s.errLatched = true ∧
      s.cfg.params.initStopOnError = true ∧
      s.caller = .initialise (.error .timeoutError) ([1].map InitItem.delay ++ [])) ∧
    cfg.params.initStopOnError = false := by decide

/-- The transactor's step statements (`IdleCheck` to `TransactionReturnsItsResult`): a state in each state of `fsm`,
quiet, with its registers written, and the answers each clause asks for. -/
theorem witness_transactor :
    (∀ f : Fsm, f ∈ [Fsm.idle, .recovering, .startingIssue, .startingWaitStart, .addressWaitReady,
        .addressWaitComplete, .dataWaitReady, .dataWaitComplete, .stoppingIssue, .stoppingWaitStop,
        .abortStoppingIssue, .abortStoppingWaitStop, .done, .aborted] →
      let s := inFsm cfg f [true, false]
      s.fsm = f ∧ s.resetAsserted = false ∧ s.encoding = none ∧ s.latched = true ∧ s.caller = .requester ∧
      s.i < s.n ∧ s.buf[s.i]? = some 0xA0) ∧
    (∀ sig ∈ [Signal.busIdle, .startDone, .txReady, .txComplete, .stopComplete],
      (inFsm cfg .idle [true, false]).answer sig = true ∧ (inFsm cfg .idle [false]).answer sig = false) ∧
    (∀ sig ∈ [Signal.startOk, .ack],
      (inFsm cfg .idle [true, false]).sampled.answer sig = false ∧
      (inFsm cfg .idle [true, true]).sampled.answer sig = true) := by decide

/-- The same, for the clauses with a bound or with none, at the boundary of each. -/
theorem witness_bounds :
    (inFsm cfg .recovering [false]).cfg.params.recoveryLimit = some 3 ∧
    (3 ≤ { inFsm cfg .recovering [false] with rcount := 2 }.rcount + 1) ∧
    ({ inFsm cfg .recovering [false] with rcount := 1 }.rcount + 1 < 3) ∧
    (inFsm cfgUnbounded .recovering [false]).cfg.params.recoveryLimit = none ∧
    (inFsm cfg .stoppingWaitStop [false]).cfg.params.waitLimit = some 2 ∧
    (2 ≤ { inFsm cfg .stoppingWaitStop [false] with wcount := 1 }.wcount + 1) ∧
    ((inFsm cfg .stoppingWaitStop [false]).wcount + 1 < 2) ∧
    (inFsm cfgUnbounded .stoppingWaitStop [false]).cfg.params.waitLimit = none := by decide

/-- `AddressPhase`: a descriptor with no bytes, its address acknowledged. `TransactionReturnsItsResult`: an abort with
its error latched. `WaitOnAFalseSample`: a data wait with a byte to send. -/
theorem witness_corners :
    (let s := { inFsm cfg .addressWaitComplete [true, true] with n := 0 };
    s.n = 0 ∧ s.latched = true ∧ s.answer .txComplete = true ∧ s.sampled.answer .ack = true) ∧
    (let s := { inFsm cfg .aborted [] with err := .busStartFailure, errLatched := true };
    s.fsm = .aborted ∧ s.errLatched = true ∧ s.caller = .requester ∧ s.resetAsserted = false ∧ s.encoding = none) ∧
    (let s := { inFsm cfg .dataWaitReady [false] with i := 6 };
    s.fsm.phase = .data ∧ s.i < s.n ∧ s.i < s.buf.length ∧ s.answer .txReady = false) := by decide

/-- The invariant holds of the accepted transaction, whatever answers are settled. -/
theorem witness_inv_accepted (answers : List Bool) :
    (accepted cfg answers).Inv ∧ (accepted cfgUnbounded answers).Inv := by
  constructor <;> constructor <;>
    simp [accepted, State.accept, State.resetWith, latchBytes, bufLen, Fsm.phase, Fsm.waits, Params.usesAddr, cfg,
      cfgUnbounded, params]

/-- The invariant holds while that transaction waits, here after its start condition. -/
theorem witness_inv_waiting (answers : List Bool) : (inFsm cfgUnbounded .startingWaitStart answers).Inv := by
  constructor <;>
    simp [inFsm, accepted, State.setFsm, State.accept, State.resetWith, latchBytes, bufLen, Fsm.phase, Fsm.waits,
      State.busy, Params.usesAddr, cfgUnbounded, params]

/-- `AllOnesTransactionSucceeds`. -/
theorem witness_all_ones :
    let s := accepted cfg (List.replicate 28 true)
    s.Inv ∧ s.resetAsserted = false ∧ s.fsm = .idle ∧ s.caller = .requester ∧
      s.answers = List.replicate (7 + 3 * s.n) true ++ [] :=
  ⟨(witness_inv_accepted _).1, by decide, by decide, by decide, by decide⟩

/-- `FirstDataNackEndsTheTransaction`, at the first byte and at the last. -/
theorem witness_first_data_nack :
    (let s := accepted cfg (List.replicate 8 true ++ [false]);
      s.Inv ∧ s.resetAsserted = false ∧ s.fsm = .idle ∧ s.caller = .requester ∧ 0 < s.n ∧
        s.cfg.params.stopOnDataNack = false ∧ s.answers = List.replicate (8 + 3 * 0) true ++ false :: []) ∧
    (let s := accepted cfg (List.replicate 26 true ++ [false]);
      s.Inv ∧ 6 < s.n ∧ s.answers = List.replicate (8 + 3 * 6) true ++ false :: []) :=
  ⟨⟨(witness_inv_accepted _).1, by decide, by decide, by decide, by decide, by decide, by decide⟩,
    (witness_inv_accepted _).1, by decide, by decide⟩

/-- `BoundedRecoveryTimesOut`, `UnboundedRecoveryNeverReturns`, `UnboundedWaitNeverReturns`. -/
theorem witness_blocking :
    (let s := accepted cfg (List.replicate 4 false);
      s.Inv ∧ s.fsm = .idle ∧ s.caller = .requester ∧ s.cfg.params.recoveryLimit = some 3 ∧
        s.answers = List.replicate (3 + 1) false ++ []) ∧
    (let s := accepted cfgUnbounded (List.replicate 2 false);
      s.Inv ∧ s.fsm = .idle ∧ s.cfg.params.recoveryLimit = none ∧ s.answers = List.replicate (1 + 1) false ++ []) ∧
    (let s := inFsm cfgUnbounded .startingWaitStart (List.replicate 2 false);
      s.Inv ∧ s.resetAsserted = false ∧ s.fsm.waits = true ∧ s.cfg.params.waitLimit = none ∧
        s.answers = List.replicate 2 false ++ []) :=
  ⟨⟨(witness_inv_accepted _).1, by decide, by decide, by decide, by decide⟩,
    ⟨(witness_inv_accepted _).2, by decide, by decide, by decide⟩,
    witness_inv_waiting _, by decide, by decide, by decide, by decide⟩

/-- `TransactionTraceShapeKept`, `StepKeepsTheInvariant`, `TraceOnlyGrows`, `ParametersAreFixed`, `NoStepFaults`: an
accepted transaction meets the invariant, has emitted nothing, and takes a step. -/
theorem witness_trace_shape :
    (accepted cfg [true]).Inv ∧ (accepted cfg [true]).resetAsserted = false ∧ (accepted cfg [true]).fsm ≠ .done ∧
      (accepted cfg [true]).fsm ≠ .aborted ∧ TxTrace [] (accepted cfg [true]) ∧
      (nextOf (step (accepted cfg [true]))).isSome = true :=
  ⟨(witness_inv_accepted _).1, by decide, by decide, by decide, ⟨[], rfl, by decide⟩, by decide⟩

/-- `NoStepGoesBack`, `AbortSources`: steps in the later phases, and aborts from each source. -/
theorem witness_aborts :
    (inFsm cfg .addressWaitComplete [true, true]).fsm.phase = .address ∧
    (nextOf (step (inFsm cfg .addressWaitComplete [true, true]))).isSome = true ∧
    (nextOf (step (inFsm cfg .startingWaitStart [true, false]))).map (fun t => (t.fsm.phase, t.err)) =
      some (.aborted, .busStartFailure) ∧
    (nextOf (step (inFsm cfgStops .addressWaitComplete [true, false]))).map (fun t => (t.fsm.phase, t.err)) =
      some (.abortStopping, .addressNackFailure) ∧
    (nextOf (step { inFsm cfg .recovering [false] with rcount := 2 })).map (fun t => (t.fsm.phase, t.err)) =
      some (.aborted, .timeoutError) := by decide

/-- `StepRunsTheDecodedInstruction`: a character left, a request held, a table word, and an ended scan. -/
theorem witness_step_runs :
    (encoding .small [0x31] 4 0).nextChar = some 0x31 ∧ (ready.present (.init 1)).takeHeld = some (.init 1, ready) ∧
    decodeTableWord 8 0x31 = some .glyph1 ∧ (encoding .small [0x31] 3 (-1)).scan < 0 ∧
    { encoding .small [0x31] 0 0 with halted := true }.halted = true := by decide

/-- `ResetStateAsSpecified`: reset asserted in a transaction. -/
theorem witness_reset : { inFsm cfg .dataWaitComplete [] with resetAsserted := true }.resetAsserted = true := by decide

end Sys2Proof.Tests
end

section
/-! The check of R7 on raw parameters, one equivalence for each constraint, and the obligation on `Config.ofParams`. -/

namespace Sys2Proof

/-- A bound that passes its check is one that is at least 1 wherever it is given (R7). -/
theorem boundOk_iff (b : Option Nat) : boundOk b = true ↔ ∀ k, b = some k → 1 ≤ k := by
  cases b with
  | none => simp [boundOk]
  | some k => simp [boundOk]

/-- No duplicates among the listed values is injectivity of the read over the slots (R7). -/
theorem nodup_iff_getD_injective (bits : List Nat) :
    bits.Nodup ↔ ∀ k < bits.length, ∀ j < bits.length, bits.getD k 0 = bits.getD j 0 → k = j := by
  constructor
  · intro hn k hk j hj h
    rw [List.getD_eq_getElem _ _ hk, List.getD_eq_getElem _ _ hj] at h
    exact hn.getElem_inj_iff.1 h
  · intro h
    rw [List.nodup_iff_injective_get]
    intro k j hkj
    refine Fin.ext (h k k.isLt j j.isLt ?_)
    rw [List.getD_eq_getElem _ _ k.isLt, List.getD_eq_getElem _ _ j.isLt]
    exact hkj

/-- Every listed value is below 8 just when the read of every slot is (R7). -/
theorem all_lt_eight_iff_getD (bits : List Nat) :
    (∀ b ∈ bits, b < 8) ↔ ∀ k < bits.length, bits.getD k 0 < 8 := by
  rw [List.forall_mem_iff_getElem]
  exact forall₂_congr fun k hk => by rw [List.getD_eq_getElem _ _ hk]

/-- The check on a family's comma bits: one value a slot, each in 0..7, and injective over the slots (R7). -/
theorem Params.commaBitsOk_iff (p : Params) (f : Family) :
    commaBitsOk f (p.commaBits f) = true ↔
      (p.commaBits f).length = f.cap ∧ (∀ k < f.cap, p.commaBit f k < 8) ∧
      (∀ k < f.cap, ∀ j < f.cap, p.commaBit f k = p.commaBit f j → k = j) := by
  simp only [commaBitsOk, Bool.and_eq_true, beq_iff_eq, decide_eq_true_eq, List.all_eq_true, and_assoc]
  refine and_congr_right fun hlen => ?_
  rw [nodup_iff_getD_injective, all_lt_eight_iff_getD, hlen]
  exact and_comm

/-- A power-on transaction is admitted when it goes to one of the two addresses and fits `buf` (R43, log entry 5). -/
theorem Params.admitsItem_transaction_iff (p : Params) (a : Addr7) (bytes : List Byte) :
    p.admitsItem (.transaction a bytes) = true ↔ (a = p.smallAddr ∨ a = p.largeAddr) ∧ bytes.length ≤ 13 := by
  simp only [Params.admitsItem, Params.usesAddr, Bool.and_eq_true, Bool.or_eq_true, beq_iff_eq, decide_eq_true_eq]
  exact Iff.rfl

/-- The check on the power-on sequence constrains its transactions only: a delay is admitted at every value (R250). -/
theorem Params.initSequence_admitted_iff (p : Params) :
    p.initSequence.all p.admitsItem = true ↔
      ∀ a bytes, InitItem.transaction a bytes ∈ p.initSequence →
        (a = p.smallAddr ∨ a = p.largeAddr) ∧ bytes.length ≤ 13 := by
  rw [List.all_eq_true]
  constructor
  · intro h a bytes hmem
    exact (p.admitsItem_transaction_iff a bytes).1 (h _ hmem)
  · intro h i hmem
    cases i with
    | delay d => rfl
    | transaction a bytes => exact (p.admitsItem_transaction_iff a bytes).2 (h a bytes hmem)

/-- Raw parameters are taken exactly when they pass the check (R7). -/
theorem Config.ofParams_isSome_iff (p : Params) : (Config.ofParams p).isSome = true ↔ p.valid = true := by
  unfold Config.ofParams
  split
  next h => simp [h]
  next h => simp [h]

/-- The check on parameters, constraint by constraint, the two families' comma bits as one statement over `f`. -/
theorem Params.valid_iff (p : Params) :
    p.valid = true ↔
      p.smallAddr ≠ p.largeAddr ∧ p.lineDevAddr0 ≠ p.lineDevAddr1 ∧
      (∀ f, commaBitsOk f (p.commaBits f) = true) ∧
      boundOk p.recoveryLimit = true ∧ boundOk p.waitLimit = true ∧ boundOk p.textMax = true ∧
      p.initSequence.all p.admitsItem = true := by
  have hfam : (∀ f, commaBitsOk f (p.commaBits f) = true) ↔
      commaBitsOk .small p.commaBitSmall = true ∧ commaBitsOk .large p.commaBitLarge = true :=
    ⟨fun h => ⟨h .small, h .large⟩, fun ⟨hs, hl⟩ f => by cases f <;> assumption⟩
  simp only [hfam, Params.valid, Bool.and_eq_true, decide_eq_true_eq, and_assoc]

namespace Certificates

/-- Settles O11: it holds. Each conjunct of the check is replaced by its own equivalence. -/
theorem badParametersRejected : Obligations.BadParametersRejected := by
  unfold Obligations.BadParametersRejected
  intro p
  simp only [Config.ofParams_isSome_iff, Params.valid_iff, Params.commaBitsOk_iff, boundOk_iff,
    Params.initSequence_admitted_iff]

end Certificates

end Sys2Proof
end

section
/-! The character rows as one operation: every row's meaning is the step of its character's class (R61, R100), and the
step of a class is one of five moves of the working state. -/

namespace Sys2Proof.Machine

/-- The character class each character row gives its meaning to (R61, R101 to R130, R132), none for a request. -/
def charClassOf : Instr → Option CharClass
  | .period => some .period
  | .comma => some .comma
  | .glyph0 | .glyphO _ => some (.glyph 0x3F)
  | .glyph1 | .glyphI _ => some (.glyph 0x06)
  | .glyph2 => some (.glyph 0x5B)
  | .glyph3 => some (.glyph 0x4F)
  | .glyph4 => some (.glyph 0x66)
  | .glyph5 | .glyphS _ => some (.glyph 0x6D)
  | .glyph6 => some (.glyph 0x7D)
  | .glyph7 => some (.glyph 0x07)
  | .glyph8 => some (.glyph 0x7F)
  | .glyph9 | .glyphG _ => some (.glyph 0x6F)
  | .glyphA _ => some (.glyph 0x77)
  | .glyphB _ => some (.glyph 0x7C)
  | .glyphC _ => some (.glyph 0x39)
  | .glyphD _ => some (.glyph 0x5E)
  | .glyphE _ => some (.glyph 0x79)
  | .glyphF _ => some (.glyph 0x71)
  | .glyphH _ => some (.glyph 0x76)
  | .glyphJ _ => some (.glyph 0x0E)
  | .glyphL _ => some (.glyph 0x38)
  | .glyphN _ => some (.glyph 0x54)
  | .glyphP _ => some (.glyph 0x73)
  | .glyphT _ => some (.glyph 0x78)
  | .glyphU _ => some (.glyph 0x3E)
  | .glyphY _ => some (.glyph 0x6E)
  | .glyphSpace => some (.glyph 0x00)
  | .glyphHyphen => some (.glyph 0x40)
  | .invalid _ => some .invalid
  | .writeLarge0 _ | .writeLarge1 _ | .writeSmall0 _ | .writeSmall1 _ | .writeSmall2 _ => none
  | .writeId5 _ | .writeId6 _ | .writeId7 _ | .init _ => none

/-- The row a character decodes to has the class that the ROM gives the character (R61, R76, R100). -/
theorem charClassOf_decode_char (c : Byte) : charClassOf (decode (.char c)) = some (classOf c) := by
  revert c
  decide

/-- What a class does to the working state, before the scan moves on (R142 to R145). -/
def CharClass.act (p : Params) : CharClass → EncodeRun → EncodeRun
  | .period => EncodeRun.stepPeriod
  | .comma => EncodeRun.stepComma p
  | .glyph pattern => EncodeRun.stepGlyph pattern
  | .invalid => EncodeRun.stepInvalid

/-- One iteration of the loop of R140 is the class's action and then the move of the scan. -/
theorem CharClass.act_advance (p : Params) (cl : CharClass) (e : EncodeRun) :
    (cl.act p e).advance = e.classStep p cl := by
  cases cl <;> rfl

/-- A character row's meaning is the action of its class. -/
theorem exec_of_charClassOf {i : Instr} {cl : CharClass} (h : charClassOf i = some cl) (s : State) :
    exec i s = s.onEncoder (cl.act s.cfg.params) := by
  cases i <;> cases h <;> rfl

/-- The meaning of a character code is the action of its class, whichever row it selects. -/
theorem exec_char (c : Byte) (s : State) :
    exec (decode (.char c)) s = s.onEncoder ((classOf c).act s.cfg.params) :=
  exec_of_charClassOf (charClassOf_decode_char c) s

/-- Where an encode has a character left, a character instruction runs its class's step (R140). -/
theorem exec_char_next {s : State} {e : EncodeRun} (he : s.encoding = some e) (hn : e.nextChar.isSome = true)
    (c : Byte) :
    exec (decode (.char c)) s = .next { s with encoding := some (e.classStep s.cfg.params (classOf c)) } := by
  simp only [exec_char, State.onEncoder, he, hn, if_true, CharClass.act_advance]

/-- Where no encode has a character left, a character instruction stops (log entry 4). -/
theorem exec_char_noCharacter {s : State} (h : ∀ e, s.encoding = some e → e.nextChar = none) (c : Byte) :
    exec (decode (.char c)) s = .fault .noCharacter := by
  rw [exec_char]
  obtain ⟨e, he, hn, -⟩ | ⟨-, hf⟩ := s.onEncoder_cases ((classOf c).act s.cfg.params)
  · rw [h e he] at hn
    cases hn
  · exact hf

/-- Everything a character instruction needs to give a next state. -/
theorem exec_char_cases {c : Byte} {s t : State} (h : exec (decode (.char c)) s = .next t) :
    ∃ e, s.encoding = some e ∧ e.nextChar.isSome = true ∧
      t = { s with encoding := some (e.classStep s.cfg.params (classOf c)) } := by
  rw [exec_char] at h
  obtain ⟨e, he, hn, ho⟩ | ⟨-, hf⟩ := s.onEncoder_cases ((classOf c).act s.cfg.params)
  · rw [ho, CharClass.act_advance] at h
    cases h
    exact ⟨e, he, hn, rfl⟩
  · rw [hf] at h
    cases h

/-- Only ',' has the class COMMA (R61). -/
theorem classOf_eq_comma {c : Byte} (h : classOf c = .comma) : c = 0x2C := by
  unfold classOf at h
  split at h
  · cases h
  · split at h
    · assumption
    · split at h <;> cases h

/-- The moves of the working state, one for each outcome of a class's step (R142 to R146). -/
inductive EncodeRun.Move (p : Params) (e : EncodeRun) : CharClass → EncodeRun → Prop where
  | skipped (cl : CharClass) : Move p e cl e.advance
  | dpSet (hc : e.cursor ≠ e.family.cap) :
    Move p e .period { e with frame := orByte e.frame e.cursor dpFlag, scan := e.scan - 1 }
  | commaSet (hc : e.cursor ≠ e.family.cap) :
    Move p e .comma
      { e with frame := orByte e.frame e.family.cap (commaFlag p e.family e.cursor), scan := e.scan - 1 }
  | halts (pattern : Pattern) (hc : e.cursor = 0) :
    Move p e (.glyph pattern) { e with halted := true, scan := e.scan - 1 }
  | places (pattern : Pattern) (hc : e.cursor ≠ 0) :
    Move p e (.glyph pattern) { e with
      cursor := e.cursor - 1
      frame := orByte e.frame (e.cursor - 1) (segmentCode pattern)
      scan := e.scan - 1 }

/-- A class's step is one of the moves. -/
theorem EncodeRun.classStep_move (p : Params) (cl : CharClass) (e : EncodeRun) :
    EncodeRun.Move p e cl (e.classStep p cl) := by
  cases cl with
  | invalid => exact .skipped _
  | period =>
    simp only [EncodeRun.classStep, EncodeRun.stepPeriod, EncodeRun.placed, decide_eq_true_eq]
    split
    · exact .dpSet ‹_›
    · exact .skipped _
  | comma =>
    simp only [EncodeRun.classStep, EncodeRun.stepComma, EncodeRun.placed, decide_eq_true_eq]
    split
    · exact .commaSet ‹_›
    · exact .skipped _
  | glyph pattern =>
    simp only [EncodeRun.classStep, EncodeRun.stepGlyph]
    split
    · exact .halts pattern ‹_›
    · exact .places pattern ‹_›

/-- The cursor only moves left (R144). -/
theorem EncodeRun.Move.cursor_le {p : Params} {e e' : EncodeRun} {cl : CharClass} (h : Move p e cl e') :
    e'.cursor ≤ e.cursor := by
  cases h with
  | skipped | dpSet | commaSet | halts => exact le_rfl
  | places => exact Nat.sub_le _ _

/-- A move changes the frame at most at the new cursor and at the comma byte (R142 to R144). -/
theorem EncodeRun.Move.frame_elsewhere {p : Params} {e e' : EncodeRun} {cl : CharClass} (h : Move p e cl e') (k : Nat)
    (hcur : k ≠ e'.cursor) (hcap : k ≠ e.family.cap) : e'.frame[k]? = e.frame[k]? := by
  cases h with
  | skipped => rfl
  | dpSet => rw [orByte_getElem?, if_neg hcur.symm]
  | commaSet => rw [orByte_getElem?, if_neg hcap.symm]
  | halts => rfl
  | places => rw [orByte_getElem?, if_neg hcur.symm]

/-- Only a comma changes the comma byte (R143). -/
theorem EncodeRun.Move.comma_byte {p : Params} {e e' : EncodeRun} {cl : CharClass} (h : Move p e cl e')
    (hcl : cl ≠ .comma) (hcur : e.cursor ≤ e.family.cap) : e'.frame[e.family.cap]? = e.frame[e.family.cap]? := by
  cases h with
  | skipped => rfl
  | dpSet hc => rw [orByte_getElem?, if_neg hc]
  | commaSet => exact absurd rfl hcl
  | halts => rfl
  | places pattern hc => rw [orByte_getElem?, if_neg (by omega)]

/-- The scan stands on a character of the text wherever one is left to read (R140). -/
theorem EncodeRun.scan_nonneg {e : EncodeRun} (hn : e.nextChar.isSome = true) : 0 ≤ e.scan := by
  unfold EncodeRun.nextChar at hn
  split at hn
  · cases hn
  · split at hn
    · rename_i hs
      rw [hs]
      exact Int.natCast_nonneg _
    · cases hn

/-- A step on a character left to read keeps the working state well-formed (R22). -/
theorem EncodeRun.Wf.classStep {e : EncodeRun} (hw : e.Wf) (hn : e.nextChar.isSome = true) (p : Params)
    (cl : CharClass) : (e.classStep p cl).Wf where
  unit_lt := by simpa using hw.unit_lt
  frame_len := by simpa using hw.frame_len
  cursor_le := by simpa using (e.classStep_move p cl).cursor_le.trans hw.cursor_le
  scan_ge := by
    have := EncodeRun.scan_nonneg hn
    simp only [EncodeRun.classStep_scan]
    omega
  scan_lt := by
    have := hw.scan_lt
    simp only [EncodeRun.classStep_scan, EncodeRun.classStep_text]
    omega
  unplaced k hk := by
    have hm := e.classStep_move p cl
    have hlt : k < e.cursor := lt_of_lt_of_le hk hm.cursor_le
    rw [hm.frame_elsewhere k hk.ne (lt_of_lt_of_le hlt hw.cursor_le).ne]
    exact hw.unplaced k hlt

end Sys2Proof.Machine

namespace Sys2Proof.Certificates

open Sys2Proof.Machine

/-- Settles O22: it holds. Every character's meaning is the shared operation, which stops there. -/
theorem characterNeedsAnEncode : Obligations.CharacterNeedsAnEncode := by
  unfold Obligations.CharacterNeedsAnEncode
  intro c s h
  exact exec_char_noCharacter h c

/-- Settles O21: it holds. The step of the character's class is one of the moves, and each clause is a fact of them. -/
theorem characterStepsLeaveTheRest : Obligations.CharacterStepsLeaveTheRest := by
  unfold Obligations.CharacterStepsLeaveTheRest
  intro c s t e he h
  obtain ⟨e₀, he₀, -, rfl⟩ := exec_char_cases h
  cases he.symm.trans he₀
  have hm := e.classStep_move s.cfg.params (classOf c)
  refine ⟨_, rfl, by simp, by simp, by simp, by simp, by simp, hm.frame_elsewhere, ?_, ?_⟩
  · intro hc hcur
    exact hm.comma_byte (fun hcl => hc (classOf_eq_comma hcl)) hcur
  · intro hcl
    rw [hcl]
    exact ⟨rfl, rfl, rfl⟩

end Sys2Proof.Certificates
end

section
/-! The requests as one operation: what a request can do when it answers a next state (R241, R242, R249, R250), what a
held request leaves, and that only a text over TEXT_MAX stops one. -/

namespace Sys2Proof.Machine

/-- A transaction that the block may accept: its bytes fit `buf` and its address is one of the two (R26, R43). -/
def Descriptor.AdmittedBy (d : Descriptor) (p : Params) : Prop := d.bytes.length ≤ bufLen ∧ p.usesAddr d.addr7 = true

/-- An admitted transaction of the power-on sequence is one the block may accept (R43, log entry 5). -/
theorem Descriptor.admittedBy_of_admitsItem {p : Params} {a : Addr7} {bytes : List Byte}
    (h : p.admitsItem (.transaction a bytes) = true) : Descriptor.AdmittedBy ⟨a, bytes⟩ p := by
  simp only [Params.admitsItem, Bool.and_eq_true, decide_eq_true_eq] at h
  exact ⟨h.2, h.1⟩

/-- What the loop of R250 over items it admits leads to: delays at the end of the trace, and then the end of the
request, or the accept of a transaction with admitted items left. -/
inductive InitLoop (first : Result) (s : State) : State → Prop where
  | ended (es : List Event) : InitLoop first s ({ s with trace := s.trace ++ es }.finishInit first)
  | accepted (es : List Event) (d : Descriptor) (rest : List InitItem) (hd : d.AdmittedBy s.cfg.params)
    (hrest : rest.all s.cfg.params.admitsItem = true) :
    InitLoop first s ({ s with trace := s.trace ++ es, caller := .initialise first rest }.accept d)

/-- The loop of R250 over admitted items. -/
theorem InitLoop.of_runInit (first : Result) {items : List InitItem} (s : State)
    (hi : items.all s.cfg.params.admitsItem = true) : InitLoop first s (State.runInit first items s) := by
  obtain ⟨ds, ⟨-, h⟩ | ⟨a, bytes, rest, hitems, h⟩⟩ := State.runInit_cases first items s <;> rw [h]
  · exact .ended _
  · rw [hitems, List.all_append, List.all_cons, Bool.and_eq_true, Bool.and_eq_true] at hi
    exact .accepted _ _ rest (Descriptor.admittedBy_of_admitsItem hi.2.1) hi.2.2

/-- The moves of a request (R241, R242, R249, R250). -/
inductive RequestMove (s : State) (r : Request) : State → Prop where
  | held (ha : s.accepts = false) : RequestMove s r (s.present r)
  | rejected (ha : s.accepts = true) : RequestMove s r (s.returnResult (.error .invalidArgument))
  | written (ha : s.accepts = true) (d : Descriptor) (hd : d.AdmittedBy s.cfg.params) :
    RequestMove s r ({ s with caller := .requester }.accept d)
  | initialised (ha : s.accepts = true) (hz : Nat) (hr : r = .init hz) {t : State}
    (ht : InitLoop .success (s.emitSetup hz) t) : RequestMove s r t

/-- A request that answers a next state makes one of the moves. -/
theorem RequestMove.of_exec {s t : State} {r : Request} (h : exec (decode (.request r)) s = .next t) :
    RequestMove s r t := by
  cases r with
  | write id text =>
    rw [exec_write] at h
    obtain ⟨ha, rfl⟩ | ⟨ha, -, rfl⟩ | ⟨f, u, ha, hu, -, rfl⟩ := State.writeRequest_cases h
    · exact .held ha
    · exact .rejected ha
    · obtain ⟨d, hl, hd, ht⟩ := s.submitFrame_unit (route_unit_lt hu) (encodeText s.cfg.params text f)
      rw [ht]
      exact .written ha d ⟨hl, hd⟩
  | init hz =>
    rw [exec_init, execInit] at h
    split at h
    next ha =>
      cases h
      exact .initialised ha hz rfl (.of_runInit _ _ (config_init_admitted s.cfg))
    next ha =>
      cases h
      exact .held (Bool.eq_false_iff.2 ha)

/-- While the block accepts no request, a request presented is held (R241). -/
theorem exec_request_held {s : State} (ha : s.accepts = false) (r : Request) :
    exec (decode (.request r)) s = .next (s.present r) := by
  cases r with
  | write id text => simp [exec_write, State.writeRequest, ha]
  | init hz => simp [exec_init, execInit, ha]

/-- A request never faults: only a text over TEXT_MAX stops one (R74, I17). -/
theorem exec_request_total (s : State) (r : Request) :
    (∃ t, exec (decode (.request r)) s = .next t) ∨ exec (decode (.request r)) s = .refused .textTooLong := by
  cases r with
  | write id text =>
    rw [exec_write, State.writeRequest]
    split
    · split
      · exact .inl ⟨_, rfl⟩
      · split
        · exact .inl ⟨_, rfl⟩
        · exact .inr rfl
    · exact .inl ⟨_, rfl⟩
  | init hz =>
    rw [exec_init, execInit]
    split <;> exact .inl ⟨_, rfl⟩

/-- An accept overwrites the first bytes of `buf` only (R192). -/
theorem latchBytes_getElem?_of_length_le (buf bytes : List Byte) {j : Nat} (h : bytes.length ≤ j) :
    (latchBytes buf bytes)[j]? = buf[j]? := by
  rw [latchBytes, List.getElem?_append_right h, List.getElem?_drop, Nat.add_sub_cancel' h]

end Sys2Proof.Machine

namespace Sys2Proof.Certificates

open Sys2Proof.Machine

/-- Settles O33: it holds. A write and an initialise request both ask first whether the block accepts. -/
theorem busyBlockHoldsRequests : Obligations.BusyBlockHoldsRequests := by
  unfold Obligations.BusyBlockHoldsRequests
  intro s r hb
  have ha : s.accepts = false := Bool.eq_false_iff.2 fun ha => hb (s.accepts_iff.1 ha)
  exact exec_request_held ha r

/-- Settles O37: it holds. Each move of an accepted request is an end or an accept, whose fields are known. -/
theorem requestsLeaveTheRest : Obligations.RequestsLeaveTheRest := by
  unfold Obligations.RequestsLeaveTheRest
  intro s t r ha h
  have hacc := s.accepts_iff.2 ha
  obtain ⟨hready, -⟩ := ha
  cases RequestMove.of_exec h with
  | held hb => simp [hb] at hacc
  | rejected => simp [hready]
  | written => simp +contextual [latchBytes_getElem?_of_length_le]
  | initialised _ hz hr ht =>
    cases ht with
    | ended => simp [hr]
    | accepted => simp +contextual [hr, latchBytes_getElem?_of_length_le]

end Sys2Proof.Certificates
end

section
/-! Everything a step can do, said once, and the two frames that follow at once: the parameters are fixed (R293), and
the bus trace only grows (R9, R28). -/

namespace Sys2Proof.Machine

/-- The moves of the block: reset, a character of an encode, the end of an encode, a held request, the transactor. -/
inductive StepMove (s : State) : State → Prop where
  | reset (hr : s.resetAsserted = true) : StepMove s s.applyReset
  | character (hr : s.resetAsserted = false) (e : EncodeRun) (he : s.encoding = some e)
    (c : Byte) (hc : e.nextChar = some c) :
    StepMove s { s with encoding := some (e.classStep s.cfg.params (classOf c)) }
  | encodeEnd (hr : s.resetAsserted = false) (e : EncodeRun) (he : s.encoding = some e) (hn : e.nextChar = none) :
    StepMove s (s.finishEncode e)
  | request (hr : s.resetAsserted = false) (he : s.encoding = none) (hf : s.fsm = .ready) (r : Request) (s' : State)
    (htake : s.takeHeld = some (r, s')) {t : State} (ht : RequestMove s' r t) : StepMove s t
  | transactor (hr : s.resetAsserted = false) (he : s.encoding = none) (hf : s.fsm ≠ .ready) {t : State}
    (ht : TxStep s t) : StepMove s t

/-- A step that answers a next state is one of the moves. -/
theorem StepMove.of_step {s t : State} (h : step s = .next t) : StepMove s t := by
  cases hr : s.resetAsserted with
  | true =>
    simp only [step, hr, if_true] at h
    cases h
    exact .reset hr
  | false =>
    cases he : s.encoding with
    | some e =>
      rw [step_encoding s e hr he, State.encodeStep] at h
      split at h
      next c hc =>
        obtain ⟨e₀, he₀, -, rfl⟩ := exec_char_cases h
        cases he.symm.trans he₀
        exact .character hr e he c hc
      next hn =>
        cases h
        exact .encodeEnd hr e he hn
    | none =>
      by_cases hf : s.fsm = .ready
      · rw [step_ready s hr he hf, State.readyStep] at h
        split at h
        next r s' htake => exact .request hr he hf r s' htake (.of_exec h)
        next => cases h
      · rw [step_transactor s hr he hf] at h
        exact .transactor hr he hf (State.transactorStep_cases h)

/-! ### What a move keeps of the parameters and the trace -/

/-- `t` has the parameters of `s`, and the trace of `s` with events added at its end. -/
def State.Extends (t s : State) : Prop := t.cfg = s.cfg ∧ s.trace <+: t.trace

/-- A state that keeps both extends. -/
theorem State.Extends.of_eq {s t : State} (hc : t.cfg = s.cfg) (ht : t.trace = s.trace) : t.Extends s :=
  ⟨hc, by rw [ht]⟩

/-- A state that adds events extends. -/
theorem State.Extends.of_append {s t : State} {es : List Event} (hc : t.cfg = s.cfg) (ht : t.trace = s.trace ++ es) :
    t.Extends s :=
  ⟨hc, es, ht.symm⟩

/-- Extending twice is extending. -/
theorem State.Extends.trans {s t u : State} (hu : u.Extends t) (ht : t.Extends s) : u.Extends s :=
  ⟨hu.1.trans ht.1, ht.2.trans hu.2⟩

/-- The loop of R250 over admitted items adds its delays. -/
theorem InitLoop.extends {first : Result} {s t : State} (h : InitLoop first s t) : t.Extends s := by
  cases h with
  | ended | accepted => exact .of_append rfl rfl

/-- The loop of an initialise request adds its delays. -/
theorem State.runInit_extends (first : Result) (items : List InitItem) (s : State) :
    (State.runInit first items s).Extends s := by
  obtain ⟨ds, ⟨-, h⟩ | ⟨a, bytes, rest, -, h⟩⟩ := State.runInit_cases first items s <;> rw [h]
  · exact .of_append rfl rfl
  · exact .of_append rfl rfl

/-- The end of a transaction adds the delays of an initialise request, if it was one's. -/
theorem State.endTransaction_extends (s : State) (r : Result) : (s.endTransaction r).Extends s := by
  obtain ⟨-, h⟩ | ⟨first, rest, -, h⟩ := s.endTransaction_cases r <;> rw [h]
  · exact .of_eq rfl rfl
  · unfold State.resumeInit
    split
    · exact .of_eq rfl rfl
    · exact State.runInit_extends _ rest _

/-- The end of a write emits nothing (R242). -/
theorem State.submitFrame_extends (s : State) (f : Family) (unit : Nat) (frame : List Byte) :
    (s.submitFrame f unit frame).Extends s := by
  unfold State.submitFrame
  split <;> exact .of_eq rfl rfl

/-- Every move of a request extends. -/
theorem RequestMove.extends {s t : State} {r : Request} (h : RequestMove s r t) : t.Extends s := by
  cases h with
  | held | rejected | written => exact .of_eq rfl rfl
  | initialised _ hz _ ht => exact ht.extends.trans (.of_append rfl (s.emitSetup_trace hz))

/-- Every move of the transactor extends. -/
theorem TxStep.extends {s t : State} (h : TxStep s t) : t.Extends s := by
  cases h with
  | recovered | recoveryTimeout | recoveryAgain => exact .of_append rfl s.forceStop_trace
  | startIssue | addressSent | dataSent | stopIssue | abortStopIssue => exact .of_append rfl rfl
  | done | aborted => exact s.endTransaction_extends _
  | idle | started | startFailed | addressAcked | addressAckedEmpty | addressNack | dataAcked | dataNack | stopped
  | abortStopped | waiting | polling | waitTimeout | abortStopTimeout => exact .of_eq rfl rfl

/-- Every step short of reset extends. -/
theorem StepMove.extends {s t : State} (h : StepMove s t) (hr : s.resetAsserted = false) : t.Extends s := by
  cases h with
  | reset hr' => rw [hr] at hr'; cases hr'
  | character => exact .of_eq rfl rfl
  | encodeEnd _ e => exact State.submitFrame_extends _ _ _ _
  | request _ _ _ r s' htake ht =>
    obtain ⟨k, d, -, rfl⟩ := State.takeHeld_leaves htake
    exact ht.extends
  | transactor _ _ _ ht => exact ht.extends

end Sys2Proof.Machine

namespace Sys2Proof.Certificates

open Sys2Proof.Machine

/-- Settles O54: it holds. Every move short of reset extends the trace. -/
theorem traceOnlyGrows : Obligations.TraceOnlyGrows := by
  unfold Obligations.TraceOnlyGrows
  intro s t hr h
  obtain ⟨-, es, ht⟩ := (StepMove.of_step h).extends hr
  exact ⟨es, ht.symm⟩

/-- Settles O55: it holds. Every move short of reset keeps the parameters, and reset starts from them. -/
theorem parametersAreFixed : Obligations.ParametersAreFixed := by
  unfold Obligations.ParametersAreFixed
  intro s t h
  have hm := StepMove.of_step h
  cases hr : s.resetAsserted with
  | false => exact (hm.extends hr).1
  | true =>
    simp only [step, hr, if_true] at h
    cases h
    rfl

end Sys2Proof.Certificates
end

section
/-! The invariant: its clauses on the registers, its clauses on a busy block, and why every move keeps them. -/

namespace Sys2Proof.Machine

/-! ### The two halves of the invariant -/

/-- The clauses of the invariant that speak of the registers in every state of `fsm` (R26, R43). -/
structure State.RegistersOk (s : State) : Prop where
  buf_len : s.buf.length = bufLen
  n_le : s.n ≤ bufLen
  i_le : s.i ≤ s.n
  addr_used : s.latched = true → s.cfg.params.usesAddr s.addr7 = true

/-- The clauses of the invariant that speak of what the transactor does in one state of `fsm` (R191, R194, R200, R268). -/
structure State.PhaseOk (s : State) : Prop where
  not_ready : s.fsm ≠ .ready
  data_lt : s.fsm.phase = .data → s.i < s.n
  abort_err : s.fsm.phase = .aborted ∨ s.fsm.phase = .abortStopping → s.errLatched = true ∧ s.err ≠ .invalidArgument
  idle_fresh : s.fsm = .idle → s.rcount = 0
  recovery_lt : ∀ k, s.cfg.params.recoveryLimit = some k → s.fsm = .recovering → s.rcount < k
  wait_lt : ∀ k, s.cfg.params.waitLimit = some k → s.fsm.waits = true → s.wcount < k

/-- READY is the only state of `fsm` with its phase (R25). -/
theorem Fsm.phase_eq_ready_iff (f : Fsm) : f.phase = .ready ↔ f = .ready := by cases f <;> decide

/-- ABORTED is the only state of `fsm` with its phase (R25). -/
theorem Fsm.phase_eq_aborted_iff (f : Fsm) : f.phase = .aborted ↔ f = .aborted := by cases f <;> decide

/-- The block is busy in every state of `fsm` but READY (R27). -/
theorem State.busy_iff (s : State) : s.busy = true ↔ s.fsm ≠ .ready := by
  rw [State.busy, decide_eq_true_iff, ne_eq, Fsm.phase_eq_ready_iff]

theorem State.Inv.registersOk {s : State} (h : s.Inv) : s.RegistersOk := ⟨h.buf_len, h.n_le, h.i_le, h.addr_used⟩

/-- In READY the invariant is that the registers are in range and an encode under way is well-formed. -/
theorem State.Inv.of_ready {s : State} (hf : s.fsm = .ready) (hreg : s.RegistersOk) (hc : s.caller = .requester)
    (he : ∀ e, s.encoding = some e → e.Wf) : s.Inv where
  buf_len := hreg.buf_len
  n_le := hreg.n_le
  i_le := hreg.i_le
  addr_used := hreg.addr_used
  data_lt := by simp [hf, Fsm.phase]
  busy_latched := by simp [State.busy_iff, hf]
  abort_err := by simp [hf, Fsm.phase]
  idle_fresh := by simp [hf]
  recovery_lt := by simp [hf]
  wait_lt := by simp [hf, Fsm.waits]
  encode_wf e h := ⟨hf, he e h⟩
  ready_caller _ := hc
  init_admitted := by simp [hc]

/-- In a transaction the invariant is that the registers are written and in range, and that the transactor's state has
what its next steps need. -/
theorem State.Inv.of_busy {s : State} (hreg : s.RegistersOk) (hph : s.PhaseOk) (hl : s.latched = true)
    (he : s.encoding = none)
    (hc : ∀ first rest, s.caller = .initialise first rest → rest.all s.cfg.params.admitsItem = true) : s.Inv where
  buf_len := hreg.buf_len
  n_le := hreg.n_le
  i_le := hreg.i_le
  addr_used := hreg.addr_used
  data_lt := hph.data_lt
  busy_latched _ := hl
  abort_err := hph.abort_err
  idle_fresh := hph.idle_fresh
  recovery_lt := hph.recovery_lt
  wait_lt := hph.wait_lt
  encode_wf := by simp [he]
  ready_caller hf := absurd hf hph.not_ready
  init_admitted := hc

/-! ### The bounds of a configuration -/

/-- A bound of a configuration is at least 1 where it is given (R7). -/
theorem config_bounds_pos (c : Config) :
    (∀ k, c.params.recoveryLimit = some k → 0 < k) ∧ (∀ k, c.params.waitLimit = some k → 0 < k) := by
  obtain ⟨-, -, -, hr, hw, -⟩ := c.params.valid_iff.1 c.ok
  exact ⟨(boundOk_iff _).1 hr, (boundOk_iff _).1 hw⟩

/-! ### Where a move of the transactor lands -/

/-- A landing in a state that reads neither a bound nor `err` nor `i`. -/
theorem State.PhaseOk.of_plain {s : State} (hf : s.fsm = .startingIssue ∨ s.fsm = .stoppingIssue ∨ s.fsm = .done) :
    s.PhaseOk := by
  obtain hf | hf | hf := hf <;> constructor <;> simp [hf, Fsm.phase, Fsm.waits]

/-- A landing in a wait within its bound, with the error of an abort and the byte of a data step (R191, R200, R268). -/
theorem State.PhaseOk.of_wait {s : State} (hf : s.fsm.waits = true)
    (hw : ∀ k, s.cfg.params.waitLimit = some k → s.wcount < k) (hd : s.fsm.phase = .data → s.i < s.n)
    (ha : s.fsm.phase = .abortStopping → s.errLatched = true ∧ s.err ≠ .invalidArgument) : s.PhaseOk where
  not_ready h := by simp [h, Fsm.waits] at hf
  data_lt := hd
  abort_err h := ha (h.resolve_left fun h => by rw [(Fsm.phase_eq_aborted_iff _).1 h] at hf; cases hf)
  idle_fresh h := by simp [h, Fsm.waits] at hf
  recovery_lt _ _ h := by simp [h, Fsm.waits] at hf
  wait_lt k hk _ := hw k hk

/-- A landing in an abort with its error (R268). -/
theorem State.PhaseOk.of_abort {s : State} (hf : s.fsm = .aborted ∨ s.fsm = .abortStoppingIssue)
    (hl : s.errLatched = true) (he : s.err ≠ .invalidArgument) : s.PhaseOk := by
  obtain hf | hf := hf <;> constructor <;> simp [hf, hl, he, Fsm.phase, Fsm.waits]

/-- A landing in the recovery loop within its bound (R194). -/
theorem State.PhaseOk.of_recovering {s : State} (hf : s.fsm = .recovering)
    (hk : ∀ k, s.cfg.params.recoveryLimit = some k → s.rcount < k) : s.PhaseOk := by
  constructor <;> simp [hf, Fsm.phase, Fsm.waits]
  exact hk

/-- `raise Abort` lands in an abort with its error (R268). -/
theorem State.PhaseOk.raiseAbort (s : State) {e : Err} (he : e ≠ .invalidArgument) (b : Bool) :
    (s.raiseAbort e b).PhaseOk :=
  .of_abort (by cases b <;> simp) rfl he

/-! ### Accepting, and the loop of an initialise request -/

/-- An accept of a transaction that fits meets the invariant, whatever the registers held (R192). -/
theorem State.accept_inv {s : State} (hb : s.buf.length = bufLen) (he : s.encoding = none)
    (hc : ∀ first rest, s.caller = .initialise first rest → rest.all s.cfg.params.admitsItem = true)
    {d : Descriptor} (hd : d.AdmittedBy s.cfg.params) : (s.accept d).Inv := by
  obtain ⟨hlen, haddr⟩ := hd
  refine .of_busy ⟨?_, hlen, Nat.zero_le _, fun _ => haddr⟩ ?_ rfl he hc
  · simp only [State.accept_buf, latchBytes, List.length_append, List.length_drop, hb]
    omega
  · constructor <;> simp [Fsm.phase, Fsm.waits]

/-- The loop of an initialise request keeps the registers in range (R250). -/
theorem InitLoop.inv {first : Result} {s t : State} (h : InitLoop first s t) (hreg : s.RegistersOk)
    (he : s.encoding = none) : t.Inv := by
  cases h with
  | ended es => exact .of_ready rfl ⟨hreg.buf_len, hreg.n_le, hreg.i_le, hreg.addr_used⟩ rfl (by simp [he])
  | accepted es d rest hd hrest =>
    refine State.accept_inv (s := { s with trace := s.trace ++ es, caller := .initialise first rest }) hreg.buf_len he
      ?_ hd
    rintro _ _ ⟨⟩
    exact hrest

/-- After a transaction the loop goes on over the items left, or ends at its error (R250). -/
theorem InitLoop.of_resumeInit {s : State} (first : Result) {rest : List InitItem} (r : Result)
    (hi : rest.all s.cfg.params.admitsItem = true) : InitLoop (keepFirst first r) s (s.resumeInit first rest r) := by
  unfold State.resumeInit
  split
  · simpa using InitLoop.ended (first := keepFirst first r) (s := s) []
  · exact .of_runInit _ s hi

/-- The end of a transaction meets the invariant (R207, R208, R250). -/
theorem State.endTransaction_inv {s : State} (hs : s.Inv) (he : s.encoding = none) (r : Result) :
    (s.endTransaction r).Inv := by
  obtain ⟨hb, hn, hi, ha⟩ := hs.registersOk
  obtain ⟨hc, h⟩ | ⟨first, rest, hc, h⟩ := s.endTransaction_cases r <;> rw [h]
  · exact .of_ready rfl ⟨hb, hn, hi, ha⟩ hc (by simp [he])
  · have hloop := InitLoop.of_resumeInit (s := { s with result := r }.setFsm .ready) first r
      (hs.init_admitted first rest hc)
    exact hloop.inv ⟨hb, hn, hi, ha⟩ he

/-! ### Every move keeps the invariant -/

/-- What no move inside a transaction writes. -/
def State.kept (s : State) : Config × Addr7 × List Byte × Nat × Bool × Option EncodeRun × Caller :=
  (s.cfg, s.addr7, s.buf, s.n, s.latched, s.encoding, s.caller)

/-- A move inside a transaction keeps the invariant when it lands where its next steps have what they need. -/
theorem State.Inv.of_move {s t : State} (hs : s.Inv) (he : s.encoding = none) (hf : s.fsm ≠ .ready)
    (hi : t.i ≤ t.n) (hp : t.PhaseOk) (hk : t.kept = s.kept := by simp [State.kept, State.waited, State.polled]) : t.Inv := by
  simp only [State.kept, Prod.mk.injEq] at hk
  obtain ⟨hcfg, haddr, hbuf, hn, hl, henc, hcaller⟩ := hk
  refine .of_busy ⟨hbuf ▸ hs.buf_len, hn ▸ hs.n_le, hi, ?_⟩ hp ?_ (henc.trans he) ?_
  · rw [hl, hcfg, haddr]
    exact hs.addr_used
  · rw [hl]
    exact hs.busy_latched (s.busy_iff.2 hf)
  · rw [hcaller, hcfg]
    exact hs.init_admitted

/-- Every move of the transactor keeps the invariant. -/
theorem TxStep.inv {s t : State} (h : TxStep s t) (hs : s.Inv) (he : s.encoding = none) (hb : s.fsm ≠ .ready) :
    t.Inv := by
  have hi := hs.i_le
  obtain ⟨hrpos, hwpos⟩ := config_bounds_pos s.cfg
  cases h with
  | idle hf =>
    refine hs.of_move he hb hi ?_
    cases s.answer .busIdle with
    | true => exact .of_plain (.inl rfl)
    | false => exact .of_recovering rfl fun k hk => (hs.idle_fresh hf).trans_lt (hrpos k hk)
  | recovered => exact hs.of_move he hb hi (.of_plain (.inl rfl))
  | recoveryTimeout => exact hs.of_move he hb hi (.raiseAbort _ (by simp) _)
  | recoveryAgain hf _ hk => exact hs.of_move he hb hi (.of_recovering hf hk)
  | startIssue => exact hs.of_move he hb hi (.of_wait rfl hwpos nofun nofun)
  | started => exact hs.of_move he hb hi (.of_wait rfl hwpos nofun nofun)
  | startFailed => exact hs.of_move he hb hi (.raiseAbort _ (by simp) _)
  | addressSent => exact hs.of_move he hb hi (.of_wait rfl hwpos nofun nofun)
  | addressAcked _ _ _ _ hn => exact hs.of_move he hb hn.le (.of_wait rfl hwpos (fun _ => hn) nofun)
  | addressAckedEmpty => exact hs.of_move he hb hi (.of_plain (.inr (.inl rfl)))
  | addressNack => exact hs.of_move he hb hi (.raiseAbort _ (by simp) _)
  | dataSent _ _ _ hlt => exact hs.of_move he hb hi (.of_wait rfl hwpos (fun _ => hlt) nofun)
  | dataAcked hf =>
    have hlt : s.i < s.n := hs.data_lt (by rw [hf]; rfl)
    refine hs.of_move he hb hlt ?_
    split
    · exact .of_wait rfl hwpos (fun _ => ‹_›) nofun
    · exact .of_plain (.inr (.inl rfl))
  | dataNack => exact hs.of_move he hb hi (.raiseAbort _ (by simp) _)
  | stopIssue => exact hs.of_move he hb hi (.of_wait rfl hwpos nofun nofun)
  | stopped => exact hs.of_move he hb hi (.of_plain (.inr (.inr rfl)))
  | abortStopIssue hf =>
    exact hs.of_move he hb hi (.of_wait rfl hwpos nofun fun _ => hs.abort_err (by rw [hf]; exact .inr rfl))
  | abortStopped hf =>
    obtain ⟨hl, herr⟩ := hs.abort_err (by rw [hf]; exact .inr rfl)
    exact hs.of_move he hb hi (.of_abort (.inl rfl) hl herr)
  | waiting hf =>
    refine hs.of_move he hb hi (.of_wait hf ?_ hs.data_lt fun h => hs.abort_err (.inr h))
    intro k hk
    exact hs.wait_lt k hk hf
  | polling _ hf hw hlt =>
    refine hs.of_move he hb hi (.of_wait hf ?_ hs.data_lt fun h => hs.abort_err (.inr h))
    intro k hk
    cases hw.symm.trans hk
    exact hlt
  | waitTimeout => exact hs.of_move he hb hi (.raiseAbort _ (by simp) _)
  | abortStopTimeout _ hf =>
    obtain ⟨hl, herr⟩ := hs.abort_err (by rw [hf]; exact .inr rfl)
    exact hs.of_move he hb hi (.of_abort (.inl rfl) hl herr)
  | done => exact s.endTransaction_inv hs he _
  | aborted => exact s.endTransaction_inv hs he _

/-- Every move of a request keeps the invariant, the request having been taken from the held ones. -/
theorem RequestMove.inv {s t : State} {r : Request} (h : RequestMove s r t) (hs : s.Inv) (hf : s.fsm = .ready)
    (he : s.encoding = none) : t.Inv := by
  obtain ⟨hb, hn, hi, ha⟩ := hs.registersOk
  have hc := hs.ready_caller hf
  cases h with
  | held => exact .of_ready hf ⟨hb, hn, hi, ha⟩ hc (by simp [he])
  | rejected => exact .of_ready hf ⟨hb, hn, hi, ha⟩ hc (by simp [he])
  | written _ d hd => exact State.accept_inv (s := { s with caller := .requester }) hb he (fun _ _ => nofun) hd
  | initialised _ _ _ ht => exact ht.inv ⟨hb, hn, hi, ha⟩ he

/-- Reset meets the invariant with any inputs still waiting (R29, log entries 2 and 11). -/
theorem State.applyReset_inv (s : State) : s.applyReset.Inv :=
  .of_ready rfl ⟨by simp [State.applyReset, State.resetWith], Nat.zero_le _, le_rfl, nofun⟩ rfl nofun

/-- Every move of the block keeps the invariant. -/
theorem StepMove.inv {s t : State} (h : StepMove s t) (hs : s.Inv) : t.Inv := by
  obtain ⟨hb, hn, hi, ha⟩ := hs.registersOk
  cases h with
  | reset => exact s.applyReset_inv
  | character _ e he c hc =>
    obtain ⟨hf, hw⟩ := hs.encode_wf e he
    refine .of_ready hf ⟨hb, hn, hi, ha⟩ (hs.ready_caller hf) ?_
    rintro _ ⟨⟩
    exact hw.classStep (by rw [hc]; rfl) _ _
  | encodeEnd _ e he =>
    obtain ⟨-, hw⟩ := hs.encode_wf e he
    obtain ⟨d, hlen, haddr, ht⟩ := { s with encoding := none }.submitFrame_unit hw.unit_lt e.frame
    rw [State.finishEncode, ht]
    exact State.accept_inv (s := { s with encoding := none, caller := .requester }) hb rfl (fun _ _ => nofun)
      ⟨hlen, haddr⟩
  | request _ he hf r s' htake ht =>
    obtain ⟨k, d, -, rfl⟩ := State.takeHeld_leaves htake
    exact ht.inv (.of_ready hf ⟨hb, hn, hi, ha⟩ (hs.ready_caller hf) (by simp [he])) hf he
  | transactor _ he hf ht => exact ht.inv hs he hf

end Sys2Proof.Machine

namespace Sys2Proof.Certificates

open Sys2Proof.Machine

/-- Settles O59: it holds. A step is one of the block's moves, and each move lands where the invariant holds. -/
theorem stepKeepsTheInvariant : Obligations.StepKeepsTheInvariant := by
  unfold Obligations.StepKeepsTheInvariant
  intro s t hs h
  exact (StepMove.of_step h).inv hs

/-- Settles O58: it holds. The state after reset is in READY, with no encode and no initialise request under way. -/
theorem resetMeetsTheInvariant : Obligations.ResetMeetsTheInvariant := by
  unfold Obligations.ResetMeetsTheInvariant
  intro c
  exact State.applyReset_inv (State.resetWith c)

end Sys2Proof.Certificates
end

section
/-! Where a step stops: from the invariant only for want of a request or for a text over TEXT_MAX (R212, I17), and with
an unwritten register exactly where the step's rule reads one (R29). -/

namespace Sys2Proof.Machine

@[simp] theorem State.waited_latched (s : State) : s.waited.latched = s.latched := rfl

@[simp] theorem State.answer_waited (s : State) (sig : Signal) : s.waited.answer sig = s.sampled.answer sig := rfl

/-! ### From the invariant the transactor goes on -/

/-- A wait answers a next state when the registers are written and its true branch answers one (R191). -/
theorem State.wait_total {s : State} {sig : Signal} {k : State → Out} (tm : State → State) (hl : s.latched = true)
    (hk : ∃ t, k s.waited = .next t) : ∃ t, s.wait sig k tm = .next t := by
  cases ha : s.answer sig with
  | true =>
    rw [State.wait_true s sig k tm ha]
    exact hk
  | false =>
    cases hw : s.cfg.params.waitLimit with
    | none => exact ⟨_, State.wait_false_unbounded s sig k tm ha hw⟩
    | some limit => exact ⟨_, State.wait_false_bounded s sig k tm limit ha hw hl⟩

/-- A read of a register goes on once an accept has written it (R29). -/
theorem State.reading_total {s t : State} (hl : s.latched = true) : ∃ u, s.reading (.next t) = .next u :=
  ⟨t, s.reading_latched _ hl⟩

/-- From the invariant every transactor step answers a next state: its registers are written (R29), a data step has its
byte (R200), and an abort its error (R268). -/
theorem State.Inv.transactorStep_total {s : State} (hs : s.Inv) (hf : s.fsm ≠ .ready) :
    ∃ t, s.transactorStep = .next t := by
  have hl := hs.busy_latched (s.busy_iff.2 hf)
  unfold State.transactorStep
  cases h : s.fsm with
  | ready => exact absurd h hf
  | idle | startingIssue | stoppingIssue | abortStoppingIssue | done => exact ⟨_, rfl⟩
  | recovering =>
    show ∃ t, s.stepRecovering = .next t
    unfold State.stepRecovering
    split
    · exact ⟨_, rfl⟩
    · exact State.reading_total hl
  | startingWaitStart | stoppingWaitStop | abortStoppingWaitStop => exact State.wait_total _ hl ⟨_, rfl⟩
  | addressWaitReady | dataWaitComplete => exact State.wait_total _ hl (State.reading_total hl)
  | addressWaitComplete =>
    refine State.wait_total _ hl ?_
    dsimp only
    split
    · exact State.reading_total hl
    · exact ⟨_, rfl⟩
  | dataWaitReady =>
    have hi : s.i < s.n := hs.data_lt (by rw [h]; rfl)
    have hib : s.i < s.buf.length := hs.buf_len ▸ hi.trans_le hs.n_le
    show ∃ t, s.stepDataSend = .next t
    rw [State.stepDataSend, s.withDataByte_eq _ _ hl hi (List.getElem?_eq_getElem hib)]
    exact State.wait_total _ hl ⟨_, rfl⟩
  | aborted =>
    have he := (hs.abort_err (by rw [h]; exact .inl rfl)).1
    exact ⟨_, by rw [State.stepAborted, if_pos he]⟩

/-- A step in READY is refused where nothing is held or the text taken is over TEXT_MAX, and else goes on (R212, I17). -/
theorem State.readyStep_total (s : State) :
    (∃ t, s.readyStep = .next t) ∨ s.readyStep = .refused .quiescent ∨ s.readyStep = .refused .textTooLong := by
  unfold State.readyStep
  split
  next r s' _ => exact (exec_request_total s' r).imp_right .inr
  next => exact .inr (.inl rfl)

/-- A step inside an encode always goes on (R74). -/
theorem State.encodeStep_total {s : State} {e : EncodeRun} (he : s.encoding = some e) :
    ∃ t, s.encodeStep e = .next t := by
  unfold State.encodeStep
  split
  next c hc => exact ⟨_, exec_char_next he (by rw [hc]; rfl) c⟩
  next => exact ⟨_, rfl⟩

/-! ### Where an unwritten register is read -/

/-- A read of a register faults where none is written, or where what follows it does (R29). -/
theorem State.reading_fault_iff (s : State) (k : Out) :
    s.reading k = .fault .unspecifiedRead ↔ s.latched = false ∨ k = .fault .unspecifiedRead := by
  unfold State.reading
  cases s.latched <;> simp

/-- Where the true branch of a wait faults under a condition `R` with no register written, the wait faults there, and on
a false sample that a limit makes it count (R191, R273). -/
theorem State.wait_fault_iff {s : State} {sig : Signal} {k : State → Out} {tm : State → State} {R : Prop}
    (hk : k s.waited = .fault .unspecifiedRead ↔ s.latched = false ∧ R) :
    s.wait sig k tm = .fault .unspecifiedRead ↔
      s.latched = false ∧ ((s.answer sig = true ∧ R) ∨ (s.answer sig = false ∧ s.cfg.params.waitLimit ≠ none)) := by
  cases ha : s.answer sig with
  | true =>
    exact (State.wait_true s sig k tm ha ▸ hk).trans (by simp)
  | false =>
    cases hw : s.cfg.params.waitLimit with
    | none => simp [State.wait_false_unbounded s sig k tm ha hw]
    | some limit =>
      cases hl : s.latched with
      | true => simp [State.wait_false_bounded s sig k tm limit ha hw hl]
      | false => simp [State.wait, ha, hw, State.reading, hl]

/-- The send of a data byte reads its registers first (R200). -/
theorem State.stepDataSend_fault_iff (s : State) :
    s.stepDataSend = .fault .unspecifiedRead ↔ s.latched = false := by
  unfold State.stepDataSend State.withDataByte
  rw [State.reading_fault_iff]
  refine or_iff_left_of_imp fun h => ?_
  split at h
  · split at h
    · exact ((State.wait_fault_iff (R := False) (by simp)).1 h).1
    · cases h
  · cases h

open Sys2Proof.Certificates

/-- The transactor faults on an unwritten register exactly where its step reads one (R29). -/
theorem State.transactorStep_fault_iff (s : State) :
    s.transactorStep = .fault .unspecifiedRead ↔
      (s.latched = false ∧ ReadsRegisters s) ∨ (s.errLatched = false ∧ s.fsm = .aborted) := by
  unfold State.transactorStep ReadsRegisters WaitsFor
  cases hf : s.fsm with
  | ready => simp
  | idle => simp [State.stepIdle]
  | recovering =>
    unfold State.stepRecovering
    cases s.cfg.params.recoveryLimit <;> simp [State.reading_fault_iff]
  | startingIssue => simp [State.stepStartIssue]
  | startingWaitStart => simpa [State.stepStartResult] using State.wait_fault_iff (s := s) (R := False) (by simp)
  | addressWaitReady =>
    simpa [State.stepAddressSend] using
      State.wait_fault_iff (s := s) (R := True) (by simp [State.reading_fault_iff])
  | addressWaitComplete =>
    refine (State.wait_fault_iff (s := s) (R := s.sampled.answer .ack = true) ?_).trans (by simp)
    cases h : s.sampled.answer .ack <;> simp [h, State.reading_fault_iff]
  | dataWaitReady => simp [State.stepDataSend_fault_iff]
  | dataWaitComplete =>
    simpa [State.stepDataAck] using
      State.wait_fault_iff (s := s) (R := True) (by simp [State.reading_fault_iff])
  | stoppingIssue => simp [State.stepStopIssue]
  | stoppingWaitStop => simpa [State.stepStopWait] using State.wait_fault_iff (s := s) (R := False) (by simp)
  | abortStoppingIssue => simp [State.stepAbortStopIssue]
  | abortStoppingWaitStop =>
    simpa [State.stepAbortStopWait] using State.wait_fault_iff (s := s) (R := False) (by simp)
  | done => simp [State.stepDone]
  | aborted => simp [State.stepAborted]

end Sys2Proof.Machine

namespace Sys2Proof.Certificates

open Sys2Proof.Machine

/-- Settles O60: it holds. Each kind of step goes on, and only READY's can be refused. -/
theorem noStepFaults : Obligations.NoStepFaults := by
  unfold Obligations.NoStepFaults
  intro s hs
  cases hr : s.resetAsserted with
  | true => exact .inl ⟨_, by rw [step, if_pos hr]⟩
  | false =>
    cases he : s.encoding with
    | some e =>
      rw [step_encoding s e hr he]
      exact .inl (State.encodeStep_total he)
    | none =>
      by_cases hf : s.fsm = .ready
      · rw [step_ready s hr he hf]
        exact s.readyStep_total
      · rw [step_transactor s hr he hf]
        exact .inl (hs.transactorStep_total hf)

/-- Settles O57: it holds. In READY a step reads no register, and elsewhere it is the transactor's. -/
theorem resetStateAsSpecified : Obligations.ResetStateAsSpecified := by
  unfold Obligations.ResetStateAsSpecified
  refine ⟨fun s hr => by rw [step, if_pos hr]; rfl, ?_, fun c => ⟨rfl, rfl, show Result.none.word = 0x700 by decide, rfl, rfl, rfl, rfl, rfl, rfl⟩⟩
  rintro s ⟨hr, he⟩
  by_cases hf : s.fsm = .ready
  · rw [step_ready s hr he hf]
    have hsilent : ¬ s.transactorStep = .fault .unspecifiedRead := by simp [State.transactorStep, hf]
    rw [s.transactorStep_fault_iff] at hsilent
    refine iff_of_false (fun h => ?_) hsilent
    obtain ⟨t, ht⟩ | ht | ht := s.readyStep_total <;> rw [ht] at h <;> cases h
  · rw [step_transactor s hr he hf]
    exact s.transactorStep_fault_iff

end Sys2Proof.Certificates
end

section
/-! The two directions of the encoding (R60, R61, R72, R76): every row of the character table is faithful to the codes
it hits, the codes no row hits are those R76 does not name, and each display identifier has its own row. -/

namespace Sys2Proof

/-- What a hit of the row says: the row's instruction, with the code's case bit, is well-formed and has that code. -/
def CharRow.Faithful (r : CharRow) : Prop :=
  ∀ c : Byte, r.hits c = true →
    (r.instr (c.getLsbD 5)).wellFormed = true ∧ encode (r.instr (c.getLsbD 5)) = .char c

/-- A row that fixes all eight bits hits one code only. -/
theorem CharRow.exact_faithful {p : Byte} {i : Instr} (hw : i.wellFormed = true) (he : encode i = .char p) :
    (CharRow.exact p i).Faithful := by
  intro c h
  have hc : c &&& 0xFF = c := BitVec.and_allOnes
  simp only [hits, exact, hc, beq_iff_eq] at h
  exact ⟨hw, he.trans (by rw [h])⟩

/-- Apart from bit 5 a letter's code is its row's pattern, so the case bit restores it (R60, R131). -/
theorem letterCode_and_caseBit (c : Byte) : letterCode (c &&& 0xDF) (c.getLsbD 5) = c := by
  revert c
  decide

/-- A letter row hits a letter's two codes, which the case bit tells apart. -/
theorem CharRow.letter_faithful {p : Byte} {i : Bool → Instr} (hw : ∀ b, (i b).wellFormed = true)
    (he : ∀ b, encode (i b) = .char (letterCode p b)) : (CharRow.letter p i).Faithful := by
  intro c h
  simp only [hits, letter, beq_iff_eq] at h
  exact ⟨hw _, (he _).trans (by rw [← h, letterCode_and_caseBit])⟩

theorem exactRows_faithful : ∀ r ∈ punctuationRows ++ digitRows ++ symbolRows, r.Faithful := by
  simp only [punctuationRows, digitRows, symbolRows, List.forall_mem_append, List.forall_mem_cons,
    List.not_mem_nil, false_imp_iff, implies_true, and_true]
  and_intros <;> exact CharRow.exact_faithful rfl rfl

theorem letterRows_faithful : ∀ r ∈ letterRows, r.Faithful := by
  simp only [letterRows, List.forall_mem_append, List.forall_mem_cons, List.not_mem_nil,
    false_imp_iff, implies_true, and_true]
  and_intros <;> exact CharRow.letter_faithful (fun _ => rfl) (fun _ => rfl)

theorem charRows_faithful {r : CharRow} (h : r ∈ charRows) : r.Faithful := by
  simp only [charRows, List.mem_append] at h
  obtain ((hp | hd) | hl) | hs := h
  · exact exactRows_faithful r (by simp [hp])
  · exact exactRows_faithful r (by simp [hd])
  · exact letterRows_faithful r hl
  · exact exactRows_faithful r (by simp [hs])

/-- The codes that R76 names in prose are those that some row of the table hits. -/
theorem namedCode_eq_any_hits (c : Byte) : namedCode c = charRows.any (fun r => r.hits c) := by
  revert c
  decide

/-- A row that hits a code is faithful to it, and a code that no row hits is the operand of INVALID (R61). -/
theorem encode_decodeChar (c : Byte) : (decodeChar c).wellFormed = true ∧ encode (decodeChar c) = .char c := by
  unfold decodeChar
  split
  next r hr =>
    have hhit := List.find?_some hr
    exact charRows_faithful (List.mem_of_find?_eq_some hr) c hhit
  next hn =>
    have hun : namedCode c = false := by
      rw [namedCode_eq_any_hits, List.any_eq_false]
      exact List.find?_eq_none.1 hn
    exact ⟨by rw [Instr.wellFormed, hun]; rfl, rfl⟩

/-- The identifiers, 3 bits each (R72). -/
theorem displayId_cases (id : DisplayId) :
    id = 0 ∨ id = 1 ∨ id = 2 ∨ id = 3 ∨ id = 4 ∨ id = 5 ∨ id = 6 ∨ id = 7 := by
  revert id
  decide

/-- Each of the eight display identifiers has a row of its own (R72). -/
theorem encode_decodeWrite (id : DisplayId) (text : List Byte) :
    (decodeWrite id text).wellFormed = true ∧ encode (decodeWrite id text) = .request (.write id text) := by
  obtain rfl | rfl | rfl | rfl | rfl | rfl | rfl | rfl := displayId_cases id <;> exact ⟨rfl, rfl⟩

/-- Every code decodes to a well-formed instruction with that code (R74). -/
theorem encode_decode (c : Code) : (decode c).wellFormed = true ∧ encode (decode c) = c := by
  match c with
  | .char c => exact encode_decodeChar c
  | .request (.write id text) => exact encode_decodeWrite id text
  | .request (.init hz) => exact ⟨rfl, rfl⟩

/-- A well-formed instruction is read back from its code, row by row. -/
theorem decode_encode (i : Instr) : Laws.RoundTrip.Statement i := by
  cases i with
  | period => exact Laws.RoundTrip.period
  | comma => exact Laws.RoundTrip.comma
  | glyph0 => exact Laws.RoundTrip.glyph0
  | glyph1 => exact Laws.RoundTrip.glyph1
  | glyph2 => exact Laws.RoundTrip.glyph2
  | glyph3 => exact Laws.RoundTrip.glyph3
  | glyph4 => exact Laws.RoundTrip.glyph4
  | glyph5 => exact Laws.RoundTrip.glyph5
  | glyph6 => exact Laws.RoundTrip.glyph6
  | glyph7 => exact Laws.RoundTrip.glyph7
  | glyph8 => exact Laws.RoundTrip.glyph8
  | glyph9 => exact Laws.RoundTrip.glyph9
  | glyphA lower => exact Laws.RoundTrip.glyphA lower
  | glyphB lower => exact Laws.RoundTrip.glyphB lower
  | glyphC lower => exact Laws.RoundTrip.glyphC lower
  | glyphD lower => exact Laws.RoundTrip.glyphD lower
  | glyphE lower => exact Laws.RoundTrip.glyphE lower
  | glyphF lower => exact Laws.RoundTrip.glyphF lower
  | glyphG lower => exact Laws.RoundTrip.glyphG lower
  | glyphH lower => exact Laws.RoundTrip.glyphH lower
  | glyphI lower => exact Laws.RoundTrip.glyphI lower
  | glyphJ lower => exact Laws.RoundTrip.glyphJ lower
  | glyphL lower => exact Laws.RoundTrip.glyphL lower
  | glyphN lower => exact Laws.RoundTrip.glyphN lower
  | glyphO lower => exact Laws.RoundTrip.glyphO lower
  | glyphP lower => exact Laws.RoundTrip.glyphP lower
  | glyphS lower => exact Laws.RoundTrip.glyphS lower
  | glyphT lower => exact Laws.RoundTrip.glyphT lower
  | glyphU lower => exact Laws.RoundTrip.glyphU lower
  | glyphY lower => exact Laws.RoundTrip.glyphY lower
  | glyphSpace => exact Laws.RoundTrip.glyphSpace
  | glyphHyphen => exact Laws.RoundTrip.glyphHyphen
  | invalid c => exact Laws.RoundTrip.invalid c
  | writeLarge0 text => exact Laws.RoundTrip.writeLarge0 text
  | writeLarge1 text => exact Laws.RoundTrip.writeLarge1 text
  | writeSmall0 text => exact Laws.RoundTrip.writeSmall0 text
  | writeSmall1 text => exact Laws.RoundTrip.writeSmall1 text
  | writeSmall2 text => exact Laws.RoundTrip.writeSmall2 text
  | writeId5 text => exact Laws.RoundTrip.writeId5 text
  | writeId6 text => exact Laws.RoundTrip.writeId6 text
  | writeId7 text => exact Laws.RoundTrip.writeId7 text
  | init hz => exact Laws.RoundTrip.init hz

namespace Certificates

/-- Settles O9: it holds. One direction is a round trip for each row of the table, the other the faithfulness of the
row that a code selects. -/
theorem decodeEncodeAgree : Obligations.DecodeEncodeAgree := by
  unfold Obligations.DecodeEncodeAgree
  exact ⟨decode_encode, encode_decode⟩

end Certificates

end Sys2Proof
end

section
/-! The fields of the bytes and of the result code (R62, R63, R68, R69, R75), the classes of characters (R61), and the
rows that characters and identifiers select. -/

namespace Sys2Proof

namespace Machine

/-- The pattern field of a ROM word is its bits 6:0 (R62). -/
theorem wordPattern_eq_extractLsb' (w : Byte) : wordPattern w = w.extractLsb' 0 7 :=
  BitVec.setWidth_eq_extractLsb' (by decide)

/-- What a memory reads at an address is listed there, unless the address is unlisted. -/
theorem Memory.read_mem_or_unlisted (m : Memory) (a : Nat) : (a, m.read a) ∈ m ∨ m.read a = Memory.unlisted := by
  induction m with
  | nil => exact .inr rfl
  | cons cell rest ih =>
    obtain ⟨b, v⟩ := cell
    by_cases hb : b = a
    · exact .inl (by simp [Memory.read, hb])
    · simpa [Memory.read, hb, Ne.symm hb] using ih

/-- A ROM word whose valid bit is clear is that of an unlisted address (R132). -/
theorem romWord_of_not_valid {c : Byte} (h : (romWord c).getLsbD 7 = false) : romWord c = 0x00 := by
  have hlisted : ∀ cell ∈ rom, cell.2.getLsbD 7 = true := by decide
  obtain hm | hu := rom.read_mem_or_unlisted c.toNat
  · exact absurd (hlisted _ hm) (by simpa [romWord] using h)
  · exact hu

/-- A shift left by one moves bit `j` of a 7-bit value to bit `j + 1` of the byte (R63, R68). -/
theorem getLsbD_shiftLeft_one_succ (p : BitVec 7) {j : Nat} (hj : j < 7) :
    (p.setWidth 8 <<< 1).getLsbD (j + 1) = p.getLsbD j := by
  simp [show j + 1 < 8 by omega]

theorem getLsbD_shiftLeft_one_zero (p : BitVec 7) : (p.setWidth 8 <<< 1).getLsbD 0 = false := by
  simp

/-- The DP flag is bit 0 of the digit byte and no other bit (R24). -/
theorem dpFlag_getLsbD (j : Nat) : dpFlag.getLsbD j = decide (j = 0) := by
  simp [dpFlag, BitVec.getLsbD_one]

/-- A character that is neither '.' nor ',' has the class its ROM word decides (R61). -/
theorem classOf_of_not_punctuation {c : Byte} (hp : c ≠ 0x2E) (hc : c ≠ 0x2C) :
    classOf c = if wordValid (romWord c) then .glyph (wordPattern (romWord c)) else .invalid := by
  rw [classOf, if_neg hp, if_neg hc, codeFor]
  cases wordValid (romWord c) <;> rfl

/-- The high bits of a result code are its status (R75). -/
theorem Result.word_status (r : Result) : r.word.extractLsb' 8 3 = r.status :=
  BitVec.extractLsb'_append_eq_left

/-- The low byte of a result code is its index (R75). -/
theorem Result.word_index (r : Result) : r.word.extractLsb' 0 8 = r.index :=
  BitVec.extractLsb'_append_eq_right

theorem Result.ofWord_word (r : Result) : Result.ofWord r.word = some r := by
  simp only [Result.ofWord, Result.word_status, Result.word_index]
  cases r with
  | success => rfl
  | none => rfl
  | error e => cases e <;> rfl

theorem Result.ofWord_reserved_status {w : BitVec 11} (h : w.extractLsb' 8 3 = 6) : Result.ofWord w = Option.none := by
  simp [Result.ofWord, h]

end Machine

namespace Certificates

open Machine

/-- Settles O20: it holds. The shared operation on an encode with a character left is the step of its class. -/
theorem characterRowsFollowTheRom : Obligations.CharacterRowsFollowTheRom := by
  unfold Obligations.CharacterRowsFollowTheRom
  intro c s e he hn
  exact exec_char_next he hn c

/-- Settles O7: it holds. The bytes are shifts by one, and the flag is bit 0. -/
theorem byteLayouts : Obligations.ByteLayouts := by
  unfold Obligations.ByteLayouts
  refine ⟨fun c => ?_, fun c h => ?_, fun p j hj => ?_, fun p => ?_, fun a => ⟨?_, fun j hj => ?_⟩,
    rfl, rfl, rfl⟩
  · rw [codeFor, wordValid, wordPattern_eq_extractLsb']
  · rw [romWord_of_not_valid h]
    rfl
  · simp [segmentCode, getLsbD_shiftLeft_one_succ p hj, dpFlag_getLsbD]
  · simp [segmentCode, dpFlag_getLsbD]
  · exact getLsbD_shiftLeft_one_zero a
  · exact getLsbD_shiftLeft_one_succ a hj

/-- Settles O8: it holds. The class follows the ROM word, a code R76 does not name selects no other row, and each sample
word and identifier is evaluated. -/
theorem decodeMap : Obligations.DecodeMap := by
  unfold Obligations.DecodeMap
  refine ⟨⟨rfl, rfl, fun c hp hc => ?_⟩, rfl, rfl, rfl, rfl, rfl, rfl, rfl, rfl, fun c hc => ?_, fun t => ?_, ?_,
    fun _ => rfl⟩
  · rw [classOf_of_not_punctuation hp hc]
    exact ⟨fun h => if_pos h, fun h => if_neg (by simp [h])⟩
  · exact Laws.decodeChar_of_not_named c (by rw [Instr.wellFormed, hc]; rfl)
  · and_intros <;> rfl
  · decide

/-- Settles O10: it holds. A code's two fields are read back, and each status has one result, but 6 has none. -/
theorem resultCodes : Obligations.ResultCodes := by
  unfold Obligations.ResultCodes
  exact ⟨by decide, by decide, by decide, by decide, fun _ => rfl, by decide, by decide, Result.ofWord_word,
    fun _ => Result.ofWord_reserved_status⟩

end Certificates

end Sys2Proof
end

section
/-! The framing of an existing unit, its range check, and the bound on a text (R73, R170 to R173, R243). -/

namespace Sys2Proof

namespace Machine

/-- The block accepts a write to a display only with a text the bound admits (R73, I17). -/
theorem State.writeRequest_textTooLong {s : State} {id : DisplayId} {f : Family} {u : Nat} {text : List Byte}
    (ha : s.accepts = true) (hid : route id = some (f, u)) (ht : s.cfg.params.admitsText text = false) :
    s.writeRequest id text = .refused .textTooLong := by
  simp [State.writeRequest, ha, hid, ht]

theorem admitsText_eq_false {p : Params} {text : List Byte} {k : Nat} (hk : p.textMax = some k)
    (hlt : k < text.length) : p.admitsText text = false := by
  simp [Params.admitsText, hk, hlt]

end Machine

namespace Certificates

open Machine

/-- Settles O27: it holds. Both branches of the range check, and the unit of a route is one of the three. -/
theorem smallFamilyFraming : Obligations.SmallFamilyFraming := by
  unfold Obligations.SmallFamilyFraming
  refine ⟨fun prm index f0 f1 f2 f3 f4 h => ?_, fun prm index frame h => ?_, fun id index h => ?_⟩
  · rw [smallFamilyFrame, if_neg (Nat.not_lt.2 h)]
    rfl
  · rw [smallFamilyFrame, if_pos h]
  · exact Nat.le_of_lt_succ (route_unit_lt h)

/-- Settles O28: it holds. Both branches of the range check, and the line of a route is one of the two. -/
theorem largeFamilyFraming : Obligations.LargeFamilyFraming := by
  unfold Obligations.LargeFamilyFraming
  refine ⟨fun prm line f0 f1 f2 f3 f4 f5 f6 f7 h => ?_, fun prm line frame h => ?_, fun id line h => ?_⟩
  · rw [largeFamilyFrame, if_neg (Nat.not_lt.2 h)]
    rfl
  · rw [largeFamilyFrame, if_pos h]
  · exact Nat.le_of_lt_succ (route_unit_lt h)

/-- Settles O32: it holds. Each of the five rows is the write to an identifier that has a route. -/
theorem textOverTheBoundIsRefused : Obligations.TextOverTheBoundIsRefused := by
  unfold Obligations.TextOverTheBoundIsRefused
  intro s text k ha hk hlt
  have ht := admitsText_eq_false hk hlt
  have hrefused {id : DisplayId} {fu : Family × Nat} (hid : route id = some fu) :=
    State.writeRequest_textTooLong (s.accepts_iff.2 ha) hid ht
  exact ⟨hrefused (id := 0) rfl, hrefused (id := 1) rfl, hrefused (id := 2) rfl, hrefused (id := 3) rfl,
    hrefused (id := 4) rfl⟩

end Certificates

end Sys2Proof
end

section
/-! The frame an encode builds (R140 to R147): an invariant of its scan, and the cursor after it as a count of the
text's glyphs. -/

namespace Sys2Proof

/-- A frame has a comma byte after its digit bytes (R11). -/
theorem Family.cap_lt_len (f : Family) : f.cap < f.len := by cases f <;> decide

namespace Machine

/-! ### The glyphs of a text -/

/-- The class of a character is a glyph's. -/
def CharClass.isGlyph : CharClass → Bool
  | .glyph _ => true
  | .period | .comma | .invalid => false

/-- How many characters are glyphs. -/
def glyphCount (cs : List Byte) : Nat := cs.countP (fun c => (classOf c).isGlyph)

theorem glyphCount_cons (c : Byte) (cs : List Byte) :
    glyphCount (c :: cs) = glyphCount cs + if (classOf c).isGlyph then 1 else 0 :=
  List.countP_cons

@[simp] theorem glyphCount_reverse (cs : List Byte) : glyphCount cs.reverse = glyphCount cs :=
  List.countP_reverse

/-- A text index holds a glyph exactly when it holds a character of a glyph's class. -/
theorem glyphAt_isSome (t : List Byte) (q : Nat) :
    (glyphAt t q).isSome = (t[q]?).any (fun c => (classOf c).isGlyph) := by
  unfold glyphAt
  cases t[q]? with
  | none => rfl
  | some c => cases h : classOf c <;> simp [CharClass.isGlyph, h]

/-- The indices that R148 lists are as many as the glyphs of the text. -/
theorem glyphIndices_length (t : List Byte) : (glyphIndices t).length = glyphCount t := by
  have htext : (List.range t.length).map (fun q => t[q]?) = t.map some :=
    List.ext_getElem (by simp) (by simp)
  calc (glyphIndices t).length
      = (List.range t.length).countP (fun q => (t[q]?).any fun c => (classOf c).isGlyph) := by
        simp only [glyphIndices, glyphAt_isSome, ← List.countP_eq_length_filter, List.countP_reverse]
    _ = ((List.range t.length).map (fun q => t[q]?)).countP (fun o => o.any fun c => (classOf c).isGlyph) := by
        rw [List.countP_map]; rfl
    _ = glyphCount t := by
        rw [htext, List.countP_map]; rfl

/-! ### The invariant of the scan -/

/-- What holds of the working state all through an encode: the scan halts only with no slot left (R146), no slot left of
the cursor holds anything (R144), a comma flag is that of a placed slot (R143), and no byte after the comma byte is
written (R67). -/
structure EncodeRun.Shaped (p : Params) (e : EncodeRun) : Prop where
  cursor_le : e.cursor ≤ e.family.cap
  halted : e.halted = true → e.cursor = 0
  unplaced : ∀ k < e.cursor, e.frame[k]? = some 0x00
  comma : ∀ b byte, e.frame[e.family.cap]? = some byte → byte.getLsbD b = true →
    ∃ k, e.cursor ≤ k ∧ k < e.family.cap ∧ p.commaBit e.family k = b
  unused : ∀ k, e.family.cap < k → k < e.family.len → e.frame[k]? = some 0x00

/-- An encode begins with an all-zero frame (R141). -/
theorem EncodeRun.start_frame_getElem? {f : Family} {k : Nat} (unit : Nat) (text : List Byte) (hk : k < f.len) :
    (EncodeRun.start f unit text).frame[k]? = some 0x00 :=
  List.getElem?_replicate_of_lt hk

theorem EncodeRun.shaped_start (p : Params) (f : Family) (unit : Nat) (text : List Byte) :
    (EncodeRun.start f unit text).Shaped p where
  cursor_le := le_rfl
  halted h := by cases h
  unplaced _ hk := start_frame_getElem? unit text (lt_trans hk f.cap_lt_len)
  comma b byte hbyte hb := by
    cases (start_frame_getElem? unit text f.cap_lt_len).symm.trans hbyte
    simp at hb
  unused _ _ hk := start_frame_getElem? unit text hk

/-- A comma flag has the one bit that the layout gives its slot (R65). -/
theorem commaFlag_getLsbD {p : Params} {f : Family} {k b : Nat} (h : (commaFlag p f k).getLsbD b = true) :
    p.commaBit f k = b := by
  simp only [commaFlag, BitVec.natCast_eq_ofNat, BitVec.getLsbD_ofNat, Nat.one_shiftLeft, Nat.testBit_two_pow,
    Bool.and_eq_true, decide_eq_true_eq] at h
  exact h.2

/-- A bit of the comma byte after a move stood there before, or is the flag of the slot at the cursor (R143). -/
theorem EncodeRun.Move.comma_bit {p : Params} {e e' : EncodeRun} {cl : CharClass} (h : Move p e cl e')
    (hle : e.cursor ≤ e.family.cap) {b : Nat} {byte : Byte} (hbyte : e'.frame[e.family.cap]? = some byte)
    (hb : byte.getLsbD b = true) :
    (∃ old, e.frame[e.family.cap]? = some old ∧ old.getLsbD b = true) ∨
    (e'.cursor = e.cursor ∧ e.cursor < e.family.cap ∧ p.commaBit e.family e.cursor = b) := by
  by_cases hcl : cl = .comma
  · subst hcl
    cases h with
    | skipped => exact .inl ⟨byte, hbyte, hb⟩
    | commaSet hc =>
      rw [orByte_getElem?, if_pos rfl, Option.map_eq_some_iff] at hbyte
      obtain ⟨old, hold, rfl⟩ := hbyte
      rw [BitVec.getLsbD_or, Bool.or_eq_true] at hb
      obtain hb | hb := hb
      · exact .inl ⟨old, hold, hb⟩
      · exact .inr ⟨rfl, lt_of_le_of_ne hle hc, commaFlag_getLsbD hb⟩
  · rw [h.comma_byte hcl hle] at hbyte
    exact .inl ⟨byte, hbyte, hb⟩

theorem EncodeRun.Move.family {p : Params} {e e' : EncodeRun} {cl : CharClass} (h : Move p e cl e') :
    e'.family = e.family := by
  cases h <;> rfl

/-- Every move keeps the shape. -/
theorem EncodeRun.Shaped.move {p : Params} {e e' : EncodeRun} {cl : CharClass} (hs : e.Shaped p)
    (hm : Move p e cl e') : e'.Shaped p := by
  have hle := hs.cursor_le
  have hcur := hm.cursor_le
  have hfam := hm.family
  constructor
  case cursor_le => exact hfam ▸ hcur.trans hle
  case halted =>
    cases hm with
    | skipped | dpSet | commaSet => exact hs.halted
    | halts _ hc => exact fun _ => hc
    | places _ hc => exact fun h => absurd (hs.halted h) hc
  case unplaced =>
    intro k hk
    rw [hm.frame_elsewhere k hk.ne (by omega)]
    exact hs.unplaced k (by omega)
  case comma =>
    rw [hfam]
    intro b byte hbyte hb
    obtain ⟨old, hold, hob⟩ | ⟨hc, hlt, hbit⟩ := hm.comma_bit hle hbyte hb
    · obtain ⟨k, hk, hkcap, hbit⟩ := hs.comma b old hold hob
      exact ⟨k, hcur.trans hk, hkcap, hbit⟩
    · exact ⟨e.cursor, hc.le, hlt, hbit⟩
  case unused =>
    rw [hfam]
    intro k hk hklen
    rw [hm.frame_elsewhere k (by omega) hk.ne']
    exact hs.unused k hk hklen

theorem EncodeRun.Shaped.scanAll {p : Params} (cs : List Byte) {e : EncodeRun} (hs : e.Shaped p) :
    (EncodeRun.scanAll p cs e).Shaped p := by
  induction cs generalizing e with
  | nil => exact hs
  | cons c rest ih =>
    rw [EncodeRun.scanAll]
    split
    · exact hs
    · exact ih (hs.move (e.classStep_move p _))

/-- A glyph takes one slot while one is free, and no other character moves the cursor (R142 to R146). -/
theorem EncodeRun.classStep_cursor (p : Params) (cl : CharClass) (e : EncodeRun) :
    (e.classStep p cl).cursor = e.cursor - if cl.isGlyph then 1 else 0 := by
  cases cl with
  | invalid => rfl
  | period => simp only [classStep, stepPeriod]; split <;> rfl
  | comma => simp only [classStep, stepComma]; split <;> rfl
  | glyph pattern =>
    simp only [classStep, stepGlyph]
    split
    next h => simp [advance, h]
    next => rfl

/-- The scan moves the cursor by one slot for each glyph, as far as there are slots. -/
theorem EncodeRun.Shaped.scanAll_cursor {p : Params} (cs : List Byte) {e : EncodeRun} (hs : e.Shaped p) :
    (EncodeRun.scanAll p cs e).cursor = e.cursor - glyphCount cs := by
  induction cs generalizing e with
  | nil => rfl
  | cons c rest ih =>
    rw [EncodeRun.scanAll]
    split
    next h => rw [hs.halted h, Nat.zero_sub]
    next =>
      rw [ih (hs.move (e.classStep_move p _)), classStep_cursor, glyphCount_cons, Nat.sub_sub, Nat.add_comm]

/-! ### The whole encode -/

/-- The working state in which the encode of a text ends (R147). -/
def encodeEnd (p : Params) (t : List Byte) (f : Family) : EncodeRun :=
  EncodeRun.scanAll p t.reverse (EncodeRun.start f 0 t)

theorem encodeText_eq (p : Params) (t : List Byte) (f : Family) : encodeText p t f = (encodeEnd p t f).frame := rfl

theorem encodeEnd_shaped (p : Params) (t : List Byte) (f : Family) : (encodeEnd p t f).Shaped p :=
  (EncodeRun.shaped_start p f 0 t).scanAll _

@[simp] theorem encodeEnd_family (p : Params) (t : List Byte) (f : Family) : (encodeEnd p t f).family = f :=
  EncodeRun.scanAll_family _ _ _

@[simp] theorem encodeText_length (p : Params) (t : List Byte) (f : Family) : (encodeText p t f).length = f.len := by
  simp [encodeText, EncodeRun.start]

/-- After an encode the slots from the cursor on are the placed ones, one for each glyph of the text. -/
theorem encodeEnd_cursor (p : Params) (t : List Byte) (f : Family) :
    (encodeEnd p t f).cursor = f.cap - (glyphIndices t).length := by
  rw [encodeEnd, (EncodeRun.shaped_start p f 0 t).scanAll_cursor, glyphCount_reverse, glyphIndices_length]
  rfl

end Machine

namespace Certificates

open Machine

/-- Settles O24: it holds. The invariant of the scan at its end, where the cursor counts the text's glyphs. -/
theorem encodedFrameShape : Obligations.EncodedFrameShape := by
  unfold Obligations.EncodedFrameShape
  intro c t f
  obtain ⟨-, -, hunplaced, hcomma, hunused⟩ := encodeEnd_shaped c.params t f
  simp only [encodeEnd_cursor, encodeEnd_family, ← encodeText_eq] at hunplaced hcomma hunused
  refine ⟨encodeText_length .., fun k _ hfew => hunplaced k (by omega), fun b byte hbyte hb => ?_, ?_, rfl⟩
  · obtain ⟨k, hplaced, hk, hbit⟩ := hcomma b byte hbyte hb
    exact ⟨k, hk, by omega, hbit⟩
  · rintro rfl
    exact hunused 7 (by decide) (by decide)

end Certificates

end Sys2Proof
end

section
/-! The entries of the character ROM (R100 to R134): the frame of a one-character text follows from the character's
pattern, the ROM lists no entry but the table's, and an Invalid character leaves an encode's frame as it is. -/

namespace Sys2Proof

namespace Machine

/-! ### What the ROM lists -/

/-- A supported character is an address the ROM lists (R132). -/
theorem mem_rom_of_wordValid {c : Byte} (h : wordValid (romWord c) = true) : (c.toNat, romWord c) ∈ rom := by
  obtain hm | hu := rom.read_mem_or_unlisted c.toNat
  · exact hm
  · rw [romWord, hu] at h
    cases h

/-- A supported code with bit 5 clear is one of the 18 letters: digits, space and hyphen have bit 5 set (R131). -/
theorem mem_letterCodes_of_wordValid {c : Byte} (h : wordValid (romWord c) = true) (h5 : c.getLsbD 5 = false) :
    c ∈ letterCodes := by
  have hlisted : ∀ cell ∈ rom, cell.1.testBit 5 = false → BitVec.ofNat 8 cell.1 ∈ letterCodes := by decide
  simpa using hlisted _ (mem_rom_of_wordValid h) h5

theorem codeFor_eq_none_iff_not_wordValid (c : Byte) : codeFor c = none ↔ wordValid (romWord c) = false := by
  simp [codeFor]

/-- A character is Invalid exactly when its word is the one of an unlisted address (R132). -/
theorem codeFor_eq_none_iff (c : Byte) : codeFor c = none ↔ romWord c = 0x00 := by
  rw [codeFor_eq_none_iff_not_wordValid]
  constructor
  · exact romWord_of_not_valid
  · intro h
    rw [h]
    rfl

/-- No ROM entry lies in the upper half of the address space (R132). -/
theorem codeFor_eq_none_of_high {c : Byte} (h : 0x80 ≤ c) : codeFor c = none := by
  have hlow : ∀ cell ∈ rom, cell.1 < 0x80 := by decide
  rw [codeFor_eq_none_iff_not_wordValid, Bool.eq_false_iff]
  exact fun hv => Nat.not_lt.2 (BitVec.le_def.1 h) (hlow _ (mem_rom_of_wordValid hv))

/-- The patterns of the supported characters are those the ROM lists, in the order of the addresses. -/
theorem filterMap_codeFor_range :
    (List.range 256).filterMap (fun c => codeFor (BitVec.ofNat 8 c)) = rom.map (fun cell => wordPattern cell.2) := by
  decide

/-- As many characters are supported as the ROM has entries (R134). -/
theorem length_filter_isSome_codeFor :
    ((List.range 256).filter (fun c => (codeFor (BitVec.ofNat 8 c)).isSome)).length = 48 := by
  rw [← List.countP_eq_length_filter, ← List.length_filterMap_eq_countP, filterMap_codeFor_range]
  rfl

/-- The other characters are Invalid (R134). -/
theorem length_filter_isNone_codeFor :
    ((List.range 256).filter (fun c => (codeFor (BitVec.ofNat 8 c)).isNone)).length = 208 := by
  have h := (List.range 256).length_eq_length_filter_add (fun c => (codeFor (BitVec.ofNat 8 c)).isSome)
  simp only [Option.not_isSome, List.length_range, length_filter_isSome_codeFor] at h
  omega

/-! ### The class of a character and its ROM entry -/

/-- A supported character is a glyph: '.' and ',' have no entry (R61, R133). -/
theorem classOf_of_codeFor {c : Byte} {p : Pattern} (h : codeFor c = some p) : classOf c = .glyph p := by
  have hp : c ≠ 0x2E := by rintro rfl; cases h
  have hc : c ≠ 0x2C := by rintro rfl; cases h
  rw [classOf, if_neg hp, if_neg hc, h]

/-- An Invalid character is '.', ',' or of the class INVALID (R61, R133). -/
theorem codeFor_eq_none_iff_classOf (c : Byte) :
    codeFor c = none ↔ classOf c = .invalid ∨ c = 0x2E ∨ c = 0x2C := by
  by_cases h : c = 0x2E ∨ c = 0x2C
  · obtain rfl | rfl := h <;> decide
  · obtain ⟨hp, hc⟩ := not_or.1 h
    rw [or_iff_left h, classOf_of_not_punctuation hp hc, codeFor_eq_none_iff_not_wordValid]
    cases wordValid (romWord c) <;> simp

/-- INVALID is the only row of its class. -/
theorem charClassOf_eq_invalid {i : Instr} (h : charClassOf i = some .invalid) : ∃ c, i = .invalid c := by
  cases i with
  | invalid c => exact ⟨c, rfl⟩
  | _ => cases h

/-- The codes R76 does not name are those of the class INVALID (R61). -/
theorem namedCode_eq_false_iff (c : Byte) : namedCode c = false ↔ classOf c = .invalid := by
  have hclass := charClassOf_decode_char c
  constructor
  · intro hn
    have hrow : decode (.char c) = .invalid c := Laws.decodeChar_of_not_named c (by rw [Instr.wellFormed, hn]; rfl)
    rw [hrow] at hclass
    exact (Option.some.inj hclass).symm
  · intro hcl
    obtain ⟨hwf, henc⟩ := encode_decode (.char c)
    obtain ⟨d, hd⟩ := charClassOf_eq_invalid (hclass.trans (by rw [hcl]))
    rw [hd] at hwf henc
    cases henc
    simpa [Instr.wellFormed] using hwf

/-! ### The frame of a text -/

/-- A character step reads neither the text nor the scan, which only say where it stands. -/
theorem EncodeRun.classStep_with_text_scan (p : Params) (cl : CharClass) (e : EncodeRun) (text : List Byte)
    (scan : Int) :
    { e with text := text, scan := scan }.classStep p cl =
      { e.classStep p cl with text := text, scan := scan - 1 } := by
  cases cl with
  | invalid => rfl
  | period => by_cases h : e.cursor = e.family.cap <;> simp [classStep, stepPeriod, placed, advance, h]
  | comma => by_cases h : e.cursor = e.family.cap <;> simp [classStep, stepComma, placed, advance, h]
  | glyph pattern => by_cases h : e.cursor = 0 <;> simp [classStep, stepGlyph, advance, h]

/-- The frame at the end of a scan does not depend on the text and scan of the state it began in. -/
theorem EncodeRun.scanAll_frame_with_text_scan (p : Params) (cs : List Byte) (e : EncodeRun) (text : List Byte)
    (scan : Int) :
    (EncodeRun.scanAll p cs { e with text := text, scan := scan }).frame = (EncodeRun.scanAll p cs e).frame := by
  induction cs generalizing e scan with
  | nil => rfl
  | cons c rest ih =>
    simp only [EncodeRun.scanAll]
    split
    · rfl
    · rw [classStep_with_text_scan, ih]

/-- A character of the class INVALID at the end of a text takes no slot (R145). -/
theorem encodeText_append_invalid {c : Byte} (h : classOf c = .invalid) (p : Params) (t : List Byte) (f : Family) :
    encodeText p (t ++ [c]) f = encodeText p t f := by
  rw [encodeText, List.reverse_append, List.reverse_singleton, List.singleton_append, EncodeRun.scanAll, h]
  exact EncodeRun.scanAll_frame_with_text_scan p t.reverse (EncodeRun.start f 0 t) _ _

/-- The one glyph of a text stands in the rightmost slot, as its segment code (R144). -/
theorem encodeText_glyph {c : Byte} {pattern : Pattern} (h : codeFor c = some pattern) (p : Params) :
    encodeText p [c] .small = [0x00, 0x00, 0x00, segmentCode pattern, 0x00] := by
  calc encodeText p [c] .small
      = ((EncodeRun.start .small 0 [c]).classStep p (classOf c)).frame := rfl
    _ = [0x00, 0x00, 0x00, 0x00 ||| segmentCode pattern, 0x00] := by rw [classOf_of_codeFor h]; rfl
    _ = [0x00, 0x00, 0x00, segmentCode pattern, 0x00] := by simp

end Machine

namespace Certificates

open Machine

/-- An entry's frame follows from its pattern and code. Its other fields are read off the ROM and the decoder. -/
theorem romEntry_of_fields {c : Byte} {i : Instr} {p : Pattern} {word code : Byte} {lit : List Nat}
    (hword : romWord c = word) (hpattern : codeFor c = some p) (hcode : segmentCode p = code)
    (hrow : decode (.char c) = i) (hlit : (List.range 7).filter (fun j => p.getLsbD j) = lit) :
    RomEntry c i p word code lit :=
  ⟨hword, hpattern, hcode, hrow, hlit, fun prm => hcode ▸ encodeText_glyph hpattern prm⟩

/-- Settles O1: it holds. The fields of the ten entries are evaluated, and so are the four shared patterns. -/
theorem digitRomEntries : Obligations.DigitRomEntries := by
  unfold Obligations.DigitRomEntries
  iterate 10 refine ⟨romEntry_of_fields rfl rfl rfl rfl rfl, ?_⟩
  exact ⟨rfl, rfl, rfl, rfl⟩

/-- Settles O2: it holds. The fields of the 20 entries are evaluated, and so are the two shared patterns. -/
theorem letterRomEntriesAToJ : Obligations.LetterRomEntriesAToJ := by
  unfold Obligations.LetterRomEntriesAToJ
  iterate 20 refine ⟨romEntry_of_fields rfl rfl rfl rfl rfl, ?_⟩
  exact ⟨rfl, rfl⟩

/-- Settles O3: it holds. The fields of the 16 entries are evaluated, and so are the two shared patterns. -/
theorem letterRomEntriesLToY : Obligations.LetterRomEntriesLToY := by
  unfold Obligations.LetterRomEntriesLToY
  iterate 16 refine ⟨romEntry_of_fields rfl rfl rfl rfl rfl, ?_⟩
  exact ⟨rfl, rfl⟩

/-- Settles O4: it holds. The space is a glyph and moves the '1' one slot to the left, where the Invalid 'K' leaves
the frame of the text "1". -/
theorem spaceAndHyphenRomEntries : Obligations.SpaceAndHyphenRomEntries := by
  unfold Obligations.SpaceAndHyphenRomEntries
  iterate 2 refine ⟨romEntry_of_fields rfl rfl rfl rfl rfl, ?_⟩
  intro prm
  refine ⟨rfl, ?_⟩
  calc encodeText prm [0x31, 0x4B] .small
      = encodeText prm [0x31] .small := encodeText_append_invalid rfl prm [0x31] .small
    _ = [0x00, 0x00, 0x00, 0x0C, 0x00] := encodeText_glyph (pattern := 0x06) rfl prm

/-- Settles O5: it holds. The 18 letters are evaluated, and a supported code with bit 5 clear is one of them. -/
theorem caseFoldsLettersOnly : Obligations.CaseFoldsLettersOnly := by
  unfold Obligations.CaseFoldsLettersOnly
  exact ⟨by decide, rfl, fun c h5 hc h => hc (mem_letterCodes_of_wordValid h.1 h5), by decide, by decide⟩

/-- Settles O6: it holds. The codes with the word 0x00 are the Invalid ones, which are '.', ',' and the class INVALID,
and a character of that class leaves the frame of the text before it. The counts are evaluated. -/
theorem invalidRomEntries : Obligations.InvalidRomEntries := by
  unfold Obligations.InvalidRomEntries
  refine ⟨fun c => ?_, codeFor_eq_none_iff, fun c => codeFor_eq_none_of_high, rfl, rfl,
    length_filter_isSome_codeFor, length_filter_isNone_codeFor, ?_, rfl, rfl, rfl, rfl, rfl, fun prm c hc => ?_⟩
  · rw [← codeFor_eq_none_iff, codeFor_eq_none_iff_classOf, namedCode_eq_false_iff]
  · rw [filterMap_codeFor_range]
    decide
  · exact encodeText_append_invalid ((namedCode_eq_false_iff c).1 hc) prm [0x31] .small

end Certificates

end Sys2Proof
end

section
/-! The meanings of the character rows (R142 to R146). -/

namespace Sys2Proof

namespace Machine

/-- A character row runs its class's step wherever an encode has a character left (R140). -/
theorem exec_of_charClassOf_next {i : Instr} {cl : CharClass} (h : charClassOf i = some cl) {s : State}
    {e : EncodeRun} (he : s.encoding = some e) (hn : e.nextChar.isSome = true) :
    exec i s = .next { s with encoding := some (e.classStep s.cfg.params cl) } := by
  simp only [exec_of_charClassOf h, State.onEncoder, he, hn, if_true, CharClass.act_advance]

theorem EncodeRun.classStep_period (p : Params) (e : EncodeRun) :
    e.classStep p .period = { e with
      frame := if e.cursor ≠ e.family.cap then orByte e.frame e.cursor dpFlag else e.frame
      scan := e.scan - 1 } := by
  simp only [classStep, stepPeriod, placed, decide_eq_true_eq]
  split <;> rfl

theorem EncodeRun.classStep_comma (p : Params) (e : EncodeRun) :
    e.classStep p .comma = { e with
      frame := if e.cursor ≠ e.family.cap then
          orByte e.frame e.family.cap (commaFlag p e.family e.cursor)
        else e.frame
      scan := e.scan - 1 } := by
  simp only [classStep, stepComma, placed, decide_eq_true_eq]
  split <;> rfl

theorem EncodeRun.classStep_glyph_no_slot (p : Params) (pattern : Pattern) {e : EncodeRun} (hc : e.cursor = 0) :
    e.classStep p (.glyph pattern) = { e with halted := true, scan := e.scan - 1 } := by
  simp only [classStep, stepGlyph, hc, if_true]
  rfl

theorem EncodeRun.classStep_glyph_slot (p : Params) (pattern : Pattern) {e : EncodeRun} (hc : e.cursor ≠ 0) :
    e.classStep p (.glyph pattern) = { e with
      cursor := e.cursor - 1
      frame := orByte e.frame (e.cursor - 1) (segmentCode pattern)
      scan := e.scan - 1 } := by
  simp only [classStep, stepGlyph, hc, if_false]
  rfl

end Machine

namespace Certificates

open Machine

/-- A row of a glyph's class places its pattern (R144, R146). -/
theorem places_of_charClassOf {i : Instr} {p : Pattern} (h : charClassOf i = some (.glyph p)) : Places i p := by
  intro s e he hn
  rw [exec_of_charClassOf_next h he hn]
  split
  next hc => rw [EncodeRun.classStep_glyph_no_slot _ p hc]
  next hc =>
    rw [EncodeRun.classStep_glyph_slot _ p hc]
    rfl

/-- Settles O18: it holds. A valid ROM word makes its code a glyph, whose step with a slot left places the word's
pattern. The frames are evaluated. -/
theorem glyphsTakeTheNextSlot : Obligations.GlyphsTakeTheNextSlot := by
  unfold Obligations.GlyphsTakeTheNextSlot
  refine ⟨fun c s e hp hc hv he hn hcur => ?_, fun prm => ⟨rfl, rfl, rfl, rfl⟩⟩
  have hclass : classOf c = .glyph (wordPattern (romWord c)) := by
    rw [classOf_of_not_punctuation hp hc, wordValid, if_pos hv]
  rw [exec_char_next he hn, hclass, EncodeRun.classStep_glyph_slot _ _ hcur.ne', wordPattern_eq_extractLsb']
  rfl

/-- Settles O12: it holds. PERIOD runs the step of its class. The frames are evaluated. -/
theorem periodSetsDpFlag : Obligations.PeriodSetsDpFlag := by
  unfold Obligations.PeriodSetsDpFlag
  refine ⟨fun s e he hn => ?_, fun prm => ⟨rfl, rfl, rfl, rfl, rfl⟩⟩
  rw [exec_of_charClassOf_next rfl he hn, EncodeRun.classStep_period]
  rfl

/-- Settles O13: it holds. COMMA runs the step of its class. The frames are evaluated for the layout of the statement,
the only part of the parameters that they depend on. -/
theorem commaSetsCommaFlag : Obligations.CommaSetsCommaFlag := by
  unfold Obligations.CommaSetsCommaFlag
  refine ⟨fun s e he hn => ?_, fun prm hbits => ?_⟩
  · rw [exec_of_charClassOf_next rfl he hn, EncodeRun.classStep_comma]
    rfl
  · have hlayout : prm.commaBits .small = Params.atReset.commaBits .small := hbits
    simp only [encodeText_congr hlayout]
    exact ⟨rfl, rfl, rfl⟩

/-- Settles O14: it holds. Each row's class is a glyph's, with the pattern of the statement. -/
theorem digitsPlaceTheirPattern : Obligations.DigitsPlaceTheirPattern := by
  unfold Obligations.DigitsPlaceTheirPattern
  and_intros <;> exact places_of_charClassOf rfl

/-- Settles O15: it holds. In either case each row's class is a glyph's, with the pattern of the statement. -/
theorem lettersAToJPlaceTheirPattern : Obligations.LettersAToJPlaceTheirPattern := by
  unfold Obligations.LettersAToJPlaceTheirPattern
  intro lower
  and_intros <;> exact places_of_charClassOf rfl

/-- Settles O16: it holds. In either case each row's class is a glyph's, with the pattern of the statement. -/
theorem lettersLToYPlaceTheirPattern : Obligations.LettersLToYPlaceTheirPattern := by
  unfold Obligations.LettersLToYPlaceTheirPattern
  intro lower
  and_intros <;> exact places_of_charClassOf rfl

/-- Settles O17: it holds. The class of each row is a glyph's, with the pattern of the statement. -/
theorem spaceAndHyphenPlaceTheirPattern : Obligations.SpaceAndHyphenPlaceTheirPattern := by
  unfold Obligations.SpaceAndHyphenPlaceTheirPattern
  exact ⟨places_of_charClassOf rfl, places_of_charClassOf rfl⟩

/-- Settles O19: it holds. INVALID runs the step of its class, whichever the character. The frames are evaluated. -/
theorem invalidCharacterIsSkipped : Obligations.InvalidCharacterIsSkipped := by
  unfold Obligations.InvalidCharacterIsSkipped
  exact ⟨fun c s e he hn => exec_of_charClassOf_next (cl := .invalid) rfl he hn, fun prm => ⟨rfl, rfl, rfl⟩⟩

end Certificates

end Sys2Proof
end

section
/-! The mux view of the encoder (R148): what one more character at the left of a text adds to a slot's digit byte and to
the comma byte is what the scan's step of that character adds, so both views give one frame. -/

namespace Sys2Proof

namespace Machine

/-! ### The glyphs of a text with one more character -/

/-- One more character at the left moves each glyph's index up by one, and is the last glyph if it is one. -/
theorem glyphIndices_cons (c : Byte) (t : List Byte) :
    glyphIndices (c :: t) = (glyphIndices t).map Nat.succ ++ if (classOf c).isGlyph then [0] else [] := by
  have hzero : (glyphAt (c :: t) 0).isSome = (classOf c).isGlyph := glyphAt_isSome _ _
  have hsucc : (fun q => (glyphAt (c :: t) q).isSome) ∘ Nat.succ = fun q => (glyphAt t q).isSome := rfl
  rw [glyphIndices, glyphIndices, List.length_cons, List.range_succ_eq_map, List.reverse_cons, List.filter_append,
    ← List.map_reverse, List.filter_map, hsucc, List.filter_singleton, hzero, Bool.cond_eq_ite]

/-- There is no glyph after the last one. -/
theorem glyphIndices_getElem?_eq_none {t : List Byte} {j : Nat} (h : glyphCount t ≤ j) : (glyphIndices t)[j]? = none :=
  List.getElem?_eq_none (by rwa [glyphIndices_length])

theorem glyphIndices_getElem?_of_lt {t : List Byte} {j : Nat} (h : j < glyphCount t) :
    ∃ q, (glyphIndices t)[j]? = some q :=
  ⟨_, List.getElem?_eq_getElem (by rwa [glyphIndices_length])⟩

/-- The glyphs that a text has stay, at indices one higher. -/
theorem glyphIndices_cons_getElem?_of_lt (c : Byte) {t : List Byte} {j : Nat} (h : j < glyphCount t) :
    (glyphIndices (c :: t))[j]? = (glyphIndices t)[j]?.map Nat.succ := by
  rw [glyphIndices_cons, List.getElem?_append_left (by simpa [glyphIndices_length] using h), List.getElem?_map]

/-- After the glyphs that a text has stands the new character, if it is a glyph. -/
theorem glyphIndices_cons_getElem?_of_le (c : Byte) {t : List Byte} {j : Nat} (h : glyphCount t ≤ j) :
    (glyphIndices (c :: t))[j]? = if (classOf c).isGlyph ∧ j = glyphCount t then some 0 else none := by
  rw [glyphIndices_cons, List.getElem?_append_right (by simpa [glyphIndices_length] using h)]
  cases (classOf c).isGlyph with
  | false => simp
  | true => simp [glyphIndices_length, List.getElem?_singleton, Nat.sub_eq_zero_iff_le, h.ge_iff_eq']

/-! ### The marks of a slot -/

/-- The floor of a glyph that is not the last one moves up with the glyphs. -/
theorem markFloor_cons_of_lt (c : Byte) {t : List Byte} {m : Nat} (h : m < glyphCount t) :
    markFloor (c :: t) m = markFloor t m + 1 := by
  obtain ⟨q, hq⟩ := glyphIndices_getElem?_of_lt h
  simp [markFloor, glyphIndices_cons_getElem?_of_lt c h, hq]

/-- The floor of the last glyph is 0. -/
theorem markFloor_count (t : List Byte) : markFloor t (glyphCount t) = 0 := by
  rw [markFloor, glyphIndices_getElem?_eq_none le_rfl]

/-- The new character is above the floor of the glyph that was the last one, unless it is a glyph itself. -/
theorem markFloor_cons_count (c : Byte) (t : List Byte) :
    markFloor (c :: t) (glyphCount t) = if (classOf c).isGlyph then 1 else 0 := by
  rw [markFloor, glyphIndices_cons_getElem?_of_le c le_rfl]
  cases (classOf c).isGlyph <;> simp

/-- A mark of a slot is a character between the slot's glyph and the next one (R148). -/
theorem marked_iff (t : List Byte) (ch : Byte) (m : Nat) :
    marked t ch m = true ↔
      ∃ q, (glyphIndices t)[m - 1]? = some q ∧ ∃ p, markFloor t m ≤ p ∧ p < q ∧ t[p]? = some ch := by
  unfold marked
  cases (glyphIndices t)[m - 1]? with
  | none => simp
  | some q =>
    simp only [List.any_eq_true, List.mem_range, Bool.and_eq_true, decide_eq_true_eq, beq_iff_eq, and_assoc,
      Option.some.injEq, exists_eq_left']
    exact exists_congr fun p => ⟨fun ⟨_, h⟩ => h, fun h => ⟨(List.getElem?_eq_some_iff.1 h.2.2).1, h⟩⟩

/-- The new character stands at index 0, the others at indices one higher. -/
theorem exists_getElem?_cons_iff (c : Byte) (t : List Byte) (ch : Byte) (lo q : Nat) :
    (∃ p, lo ≤ p ∧ p < q + 1 ∧ (c :: t)[p]? = some ch) ↔
      (lo = 0 ∧ c = ch) ∨ ∃ p, lo ≤ p + 1 ∧ p < q ∧ t[p]? = some ch := by
  rw [← Nat.or_exists_add_one]
  simp

/-- One more character marks the slot of the glyph that was the last one (R142, R143), and no other. -/
theorem marked_cons (c : Byte) (t : List Byte) {ch : Byte} (hch : (classOf ch).isGlyph = false) {m : Nat}
    (hm : 1 ≤ m) : marked (c :: t) ch m = true ↔ marked t ch m = true ∨ (m = glyphCount t ∧ c = ch) := by
  by_cases hlast : glyphCount t < m
  · have hle : glyphCount t ≤ m - 1 := by omega
    rw [marked_iff, marked_iff, glyphIndices_getElem?_eq_none hle, glyphIndices_cons_getElem?_of_le c hle]
    simp [hlast.ne']
  · have hlt : m - 1 < glyphCount t := by omega
    obtain ⟨q, hq⟩ := glyphIndices_getElem?_of_lt hlt
    simp only [marked_iff, glyphIndices_cons_getElem?_of_lt c hlt, hq, Option.map_some, Option.some.injEq,
      exists_eq_left', Nat.succ_eq_add_one, exists_getElem?_cons_iff]
    by_cases hmid : m = glyphCount t
    · subst hmid
      rw [markFloor_cons_count, markFloor_count]
      split
      next hg =>
        have hne : c ≠ ch := by rintro rfl; simp [hch] at hg
        simp [hne]
      next => simp [or_comm]
    · rw [markFloor_cons_of_lt c (by omega)]
      simp [hmid]

/-! ### The digit byte of a slot -/

/-- The segment code of a class, 0 where it is no glyph's (R63). -/
def CharClass.code : CharClass → Byte
  | .glyph pattern => segmentCode pattern
  | .period | .comma | .invalid => 0x00

/-- The segment code that the mux view gives slot `cap(f) − m` (R148). -/
def slotCode (t : List Byte) (m : Nat) : Byte :=
  ((glyphIndices t)[m - 1]?.bind (glyphAt t)).elim 0x00 segmentCode

theorem muxDigit_eq (t : List Byte) (m : Nat) :
    muxDigit t m = slotCode t m ||| if marked t 0x2E m then dpFlag else 0x00 := by
  unfold muxDigit slotCode
  cases (glyphIndices t)[m - 1]? with
  | none => rfl
  | some q => cases h : glyphAt t q <;> simp [h]

/-- One more character gives its code to the slot after those of the glyphs so far, and to no other (R144). -/
theorem slotCode_cons (c : Byte) (t : List Byte) {m : Nat} (hm : 1 ≤ m) :
    slotCode (c :: t) m = slotCode t m ||| if m = glyphCount t + 1 then (classOf c).code else 0x00 := by
  by_cases hlt : m - 1 < glyphCount t
  · obtain ⟨q, hq⟩ := glyphIndices_getElem?_of_lt hlt
    have hold : slotCode (c :: t) m = slotCode t m := by
      rw [slotCode, slotCode, glyphIndices_cons_getElem?_of_lt c hlt, hq]
      rfl
    simp [hold, show m ≠ glyphCount t + 1 by omega]
  · have hle : glyphCount t ≤ m - 1 := by omega
    have hnew : m - 1 = glyphCount t ↔ m = glyphCount t + 1 := by omega
    simp only [slotCode, glyphIndices_cons_getElem?_of_le c hle, glyphIndices_getElem?_eq_none hle, hnew]
    by_cases hslot : m = glyphCount t + 1
    · cases hcl : classOf c <;> simp [hslot, hcl, glyphAt, CharClass.isGlyph, CharClass.code]
    · simp [hslot]

/-- What a character adds to the digit byte of slot `cap(f) − m`, after a text of `n` glyphs: its code to the next slot,
or a period's flag to the slot of the last glyph (R142, R144). -/
def CharClass.digitMark (cl : CharClass) (n m : Nat) : Byte :=
  (if m = n + 1 then cl.code else 0x00) ||| if m = n ∧ cl = .period then dpFlag else 0x00

theorem CharClass.digitMark_period (n m : Nat) :
    CharClass.period.digitMark n m = if m = n then dpFlag else 0x00 := by simp [digitMark, code]

theorem CharClass.digitMark_comma (n m : Nat) : CharClass.comma.digitMark n m = 0x00 := by simp [digitMark, code]

theorem CharClass.digitMark_glyph (pattern : Pattern) (n m : Nat) :
    (CharClass.glyph pattern).digitMark n m = if m = n + 1 then segmentCode pattern else 0x00 := by
  simp [digitMark, code]

theorem CharClass.digitMark_invalid (n m : Nat) : CharClass.invalid.digitMark n m = 0x00 := by simp [digitMark, code]

/-- A character adds nothing to the slots of the glyphs before the last one. -/
theorem CharClass.digitMark_of_lt (cl : CharClass) {n m : Nat} (h : m < n) : cl.digitMark n m = 0x00 := by
  simp [digitMark, h.ne, show m ≠ n + 1 by omega]

/-- Only '.' has the class PERIOD (R61). -/
theorem classOf_eq_period_iff (c : Byte) : classOf c = .period ↔ c = 0x2E := by
  constructor
  · intro h
    unfold classOf at h
    split at h
    · assumption
    · split at h
      · cases h
      · split at h <;> cases h
  · rintro rfl
    rfl

theorem classOf_eq_comma_iff (c : Byte) : classOf c = .comma ↔ c = 0x2C :=
  ⟨classOf_eq_comma, by rintro rfl; rfl⟩

/-- OR takes the code and the flag of a digit byte in any order, and a flag that is set twice as set once (R41). -/
theorem or_ite_or (x y v : Byte) (P Q : Prop) [Decidable P] [Decidable Q] :
    (x ||| y) ||| (if P ∨ Q then v else 0x00) = (x ||| if P then v else 0x00) ||| (y ||| if Q then v else 0x00) := by
  split_ifs <;> grind

theorem muxDigit_cons (c : Byte) (t : List Byte) {m : Nat} (hm : 1 ≤ m) :
    muxDigit (c :: t) m = muxDigit t m ||| (classOf c).digitMark (glyphCount t) m := by
  simp only [muxDigit_eq, slotCode_cons c t hm, marked_cons c t (ch := 0x2E) rfl hm, or_ite_or, CharClass.digitMark,
    classOf_eq_period_iff]

/-! ### The comma byte -/

/-- The bits of a byte into which the flags of some slots are combined. -/
theorem foldl_or_getLsbD_iff (P : Nat → Bool) (g : Nat → Byte) (ks : List Nat) (a : Byte) (i : Nat) :
    (ks.foldl (fun b k => if P k then b ||| g k else b) a).getLsbD i = true ↔
      a.getLsbD i = true ∨ ∃ k ∈ ks, P k = true ∧ (g k).getLsbD i = true := by
  induction ks generalizing a with
  | nil => simp
  | cons k rest ih =>
    rw [List.foldl_cons, ih]
    cases h : P k <;> simp [h, or_assoc]

/-- A bit of the comma byte is the flag of a slot that a comma marks (R148). -/
theorem muxComma_getLsbD_iff (p : Params) (t : List Byte) (f : Family) (i : Nat) :
    (muxComma p t f).getLsbD i = true ↔
      ∃ k < f.cap, marked t 0x2C (f.cap - k) = true ∧ (commaFlag p f k).getLsbD i = true := by
  simp [muxComma, foldl_or_getLsbD_iff]

/-- What a character adds to the comma byte after a text of `n` glyphs: a comma's flag for the slot of the last glyph
that has one (R143). -/
def CharClass.commaMark (p : Params) (f : Family) (n : Nat) (cl : CharClass) : Byte :=
  if cl = .comma ∧ 1 ≤ n ∧ n ≤ f.cap then commaFlag p f (f.cap - n) else 0x00

theorem muxComma_cons (p : Params) (c : Byte) (t : List Byte) (f : Family) :
    muxComma p (c :: t) f = muxComma p t f ||| (classOf c).commaMark p f (glyphCount t) := by
  refine BitVec.eq_of_getLsbD_eq fun i _ => ?_
  rw [Bool.eq_iff_iff, BitVec.getLsbD_or, Bool.or_eq_true, muxComma_getLsbD_iff, muxComma_getLsbD_iff]
  have hslots : ∀ k < f.cap, (marked (c :: t) 0x2C (f.cap - k) = true ↔
      marked t 0x2C (f.cap - k) = true ∨ (f.cap - k = glyphCount t ∧ c = 0x2C)) :=
    fun k hk => marked_cons c t rfl (by omega)
  simp only [CharClass.commaMark, classOf_eq_comma_iff]
  constructor
  · rintro ⟨k, hk, hm, hb⟩
    obtain hold | ⟨hn, hc⟩ := (hslots k hk).1 hm
    · exact .inl ⟨k, hk, hold, hb⟩
    · rw [if_pos ⟨hc, by omega, by omega⟩, ← hn, Nat.sub_sub_self hk.le]
      exact .inr hb
  · rintro (⟨k, hk, hold, hb⟩ | hb)
    · exact ⟨k, hk, (hslots k hk).2 (.inl hold), hb⟩
    · split at hb
      next h =>
        obtain ⟨hc, hpos, hle⟩ := h
        have hk : f.cap - glyphCount t < f.cap := by omega
        exact ⟨_, hk, (hslots _ hk).2 (.inr ⟨Nat.sub_sub_self hle, hc⟩), hb⟩
      next => simp at hb

/-! ### The scan shows the mux view -/

/-- Only a glyph read with no slot left halts the scan (R146). -/
theorem EncodeRun.classStep_halted (p : Params) (cl : CharClass) (e : EncodeRun) :
    (e.classStep p cl).halted = (e.halted || (cl.isGlyph && decide (e.cursor = 0))) := by
  cases cl with
  | invalid => simp [classStep, stepInvalid, advance, CharClass.isGlyph]
  | period => simp [classStep_period, CharClass.isGlyph]
  | comma => simp [classStep_comma, CharClass.isGlyph]
  | glyph pattern =>
    by_cases hc : e.cursor = 0
    · simp [classStep_glyph_no_slot p pattern hc, hc, CharClass.isGlyph]
    · simp [classStep_glyph_slot p pattern hc, hc, CharClass.isGlyph]

/-- What a step adds to a digit byte, after `n` glyphs that have all taken a slot. -/
theorem EncodeRun.classStep_digit (p : Params) (cl : CharClass) {e : EncodeRun} {n m : Nat} {b : Byte}
    (hn : e.cursor + n = e.family.cap) (hm : 1 ≤ m) (hcap : m ≤ e.family.cap)
    (hb : e.frame[e.family.cap - m]? = some b) :
    (e.classStep p cl).frame[e.family.cap - m]? = some (b ||| cl.digitMark n m) := by
  cases cl with
  | invalid => simpa [classStep, stepInvalid, advance, CharClass.digitMark_invalid] using hb
  | comma =>
    have hcomma : e.family.cap ≠ e.family.cap - m := by omega
    rw [classStep_comma, CharClass.digitMark_comma]
    split <;> simp [orByte_getElem?, hcomma, hb]
  | period =>
    rw [classStep_period, CharClass.digitMark_period]
    by_cases hslot : m = n
    · have hcur : e.cursor = e.family.cap - m := by omega
      have hplaced : e.cursor ≠ e.family.cap := by omega
      rw [if_pos hplaced, if_pos hslot, hcur, orByte_getElem?, if_pos rfl, hb, Option.map_some]
    · have hcur : e.cursor ≠ e.family.cap - m := by omega
      rw [if_neg hslot]
      split <;> simp [orByte_getElem?, hcur, hb]
  | glyph pattern =>
    rw [CharClass.digitMark_glyph]
    by_cases hc : e.cursor = 0
    · have hslot : m ≠ n + 1 := by omega
      simp [classStep_glyph_no_slot p pattern hc, hb, hslot]
    · rw [classStep_glyph_slot p pattern hc]
      by_cases hslot : m = n + 1
      · have hcur : e.cursor - 1 = e.family.cap - m := by omega
        rw [if_pos hslot, hcur, orByte_getElem?, if_pos rfl, hb, Option.map_some]
      · have hcur : e.cursor - 1 ≠ e.family.cap - m := by omega
        simp [orByte_getElem?, hcur, hb, hslot]

/-- What a step adds to the comma byte, after `n` glyphs that have all taken a slot. -/
theorem EncodeRun.classStep_comma_byte (p : Params) (cl : CharClass) {e : EncodeRun} {n : Nat} {b : Byte}
    (hn : e.cursor + n = e.family.cap) (hb : e.frame[e.family.cap]? = some b) :
    (e.classStep p cl).frame[e.family.cap]? = some (b ||| cl.commaMark p e.family n) := by
  by_cases hcl : cl = .comma
  · subst hcl
    have hcur : e.family.cap - n = e.cursor := by omega
    rw [classStep_comma]
    split
    next hplaced =>
      have hflag : 1 ≤ n ∧ n ≤ e.family.cap := by omega
      simp [orByte_getElem?, hb, CharClass.commaMark, hcur, hflag]
    next hnone =>
      have hzero : n = 0 := by omega
      simp [hb, CharClass.commaMark, hzero]
  · rw [(e.classStep_move p cl).comma_byte hcl (by omega), hb]
    simp [CharClass.commaMark, hcl]

/-- The working state of an encode that has read the text `t`, right to left: its bytes are those of the mux view, and
the cursor counts the glyphs. -/
structure EncodeRun.Shows (p : Params) (t : List Byte) (e : EncodeRun) : Prop where
  digit : ∀ m, 1 ≤ m → m ≤ e.family.cap → e.frame[e.family.cap - m]? = some (muxDigit t m)
  comma : e.frame[e.family.cap]? = some (muxComma p t e.family)
  cursor : e.cursor = e.family.cap - glyphCount t
  halted : e.halted = true ↔ e.family.cap < glyphCount t

theorem EncodeRun.shows_start (p : Params) (f : Family) (unit : Nat) (text : List Byte) :
    (EncodeRun.start f unit text).Shows p [] where
  digit m _ _ := by
    have hzero : muxDigit [] m = 0x00 := by simp [muxDigit, marked, glyphIndices]
    rw [hzero]
    exact start_frame_getElem? unit text (lt_of_le_of_lt (Nat.sub_le _ _) f.cap_lt_len)
  comma := by
    have hzero : muxComma p [] f = 0x00 := by cases f <;> rfl
    exact hzero ▸ start_frame_getElem? unit text f.cap_lt_len
  cursor := rfl
  halted := by simp [start, glyphCount]

/-- Reading one more character shows the mux view of the longer text. -/
theorem EncodeRun.Shows.cons {p : Params} {t : List Byte} {e : EncodeRun} (h : e.Shows p t) (c : Byte) :
    (EncodeRun.scanAll p [c] e).Shows p (c :: t) := by
  obtain ⟨hdigit, hcomma, hcursor, hhalted⟩ := h
  rw [scanAll]
  split
  next hhalt =>
    have hfull := hhalted.1 hhalt
    constructor
    case digit =>
      intro m hm hcap
      rw [muxDigit_cons c t hm, CharClass.digitMark_of_lt _ (by omega), hdigit m hm hcap]
      simp
    case comma => simp [muxComma_cons, CharClass.commaMark, hcomma, Nat.not_le.2 hfull]
    case cursor => rw [glyphCount_cons]; omega
    case halted => rw [glyphCount_cons]; simp [hhalt]; omega
  next hrun =>
    have hroom : e.cursor + glyphCount t = e.family.cap := by
      have := mt hhalted.2 hrun
      omega
    simp only [scanAll]
    constructor
    case digit =>
      intro m hm hcap
      rw [classStep_family] at hcap ⊢
      rw [muxDigit_cons c t hm, classStep_digit p _ hroom hm hcap (hdigit m hm hcap)]
    case comma => rw [classStep_family, muxComma_cons, classStep_comma_byte p _ hroom hcomma]
    case cursor => rw [classStep_family, classStep_cursor, glyphCount_cons]; omega
    case halted =>
      rw [classStep_family, classStep_halted, glyphCount_cons]
      cases (classOf c).isGlyph <;> simp [hrun] <;> omega

theorem EncodeRun.shows_scan (p : Params) (f : Family) (unit : Nat) (text t : List Byte) :
    (EncodeRun.scanAll p t.reverse (EncodeRun.start f unit text)).Shows p t := by
  induction t with
  | nil => exact shows_start p f unit text
  | cons c t ih =>
    rw [List.reverse_cons, scanAll_append]
    exact ih.cons c

/-! ### The whole frame -/

@[simp] theorem muxFrame_length (p : Params) (t : List Byte) (f : Family) : (muxFrame p t f).length = f.len := by
  cases f <;> simp [muxFrame, Family.cap, Family.len]

theorem muxFrame_digit (p : Params) (t : List Byte) {f : Family} {k : Nat} (hk : k < f.cap) :
    (muxFrame p t f)[k]? = some (muxDigit t (f.cap - k)) := by
  simp [muxFrame, List.getElem?_append, hk]

theorem muxFrame_comma (p : Params) (t : List Byte) (f : Family) :
    (muxFrame p t f)[f.cap]? = some (muxComma p t f) := by
  simp [muxFrame]

theorem muxFrame_unused (p : Params) (t : List Byte) {f : Family} {k : Nat} (hk : f.cap < k) (hlen : k < f.len) :
    (muxFrame p t f)[k]? = some 0x00 := by
  have hpad : f.cap + 1 ≤ k := hk
  rw [muxFrame, List.getElem?_append_right (by simpa), List.getElem?_replicate]
  simp
  omega

/-- The frame after a scan is that of the mux view, whichever text and unit the working state names. -/
theorem scan_frame_eq_muxFrame (p : Params) (f : Family) (unit : Nat) (text t : List Byte) :
    (EncodeRun.scanAll p t.reverse (EncodeRun.start f unit text)).frame = muxFrame p t f := by
  have hshows := EncodeRun.shows_scan p f unit text t
  have hshaped := (EncodeRun.shaped_start p f unit text).scanAll t.reverse
  have hfam := EncodeRun.scanAll_family p t.reverse (EncodeRun.start f unit text)
  have hlen := EncodeRun.scanAll_frame_length p t.reverse (EncodeRun.start f unit text)
  generalize EncodeRun.scanAll p t.reverse (EncodeRun.start f unit text) = e at *
  obtain rfl : e.family = f := hfam
  refine List.ext_getElem?' fun k hk => ?_
  have hk : k < e.family.len := by simpa [hlen, EncodeRun.start] using hk
  obtain hdigit | rfl | hunused := lt_trichotomy k e.family.cap
  · rw [muxFrame_digit p t hdigit, ← hshows.digit _ (by omega) (by omega), Nat.sub_sub_self hdigit.le]
  · rw [muxFrame_comma, hshows.comma]
  · rw [muxFrame_unused p t hunused hk, hshaped.unused k hunused hk]

end Machine

namespace Certificates

open Machine

/-- Settles O23: it holds. By induction on the text, each byte of the scan's frame is the mux view's. -/
theorem scanEqualsMuxView : Obligations.ScanEqualsMuxView := by
  unfold Obligations.ScanEqualsMuxView
  exact fun prm t f => scan_frame_eq_muxFrame prm f 0 t t

/-- Settles O25: it holds. The scan halts when the glyphs outnumber the slots, and a halted scan reads no more. The
frames are evaluated. -/
theorem overflowDropsTheLeft : Obligations.OverflowDropsTheLeft := by
  unfold Obligations.OverflowDropsTheLeft
  refine ⟨fun c p s e hclass he hn hcur => ?_, fun prm t f => ?_, fun prm => ⟨rfl, rfl, rfl⟩⟩
  · rw [exec_char_next he hn, hclass, EncodeRun.classStep_glyph_no_slot _ p hcur]
  · have hhalts (text : List Byte) : (EncodeRun.scanAll prm t.reverse (EncodeRun.start f 0 text)).halted = true ↔
        f.cap < (glyphIndices t).length := by
      rw [(EncodeRun.shows_scan prm f 0 text t).halted, EncodeRun.scanAll_family, glyphIndices_length]
      rfl
    refine ⟨hhalts t, fun hover left => ?_⟩
    calc encodeText prm (left ++ t) f
        = (EncodeRun.scanAll prm t.reverse (EncodeRun.start f 0 (left ++ t))).frame := by
          rw [encodeText, List.reverse_append, EncodeRun.scanAll_append,
            EncodeRun.scanAll_halted prm _ _ ((hhalts _).2 hover)]
      _ = muxFrame prm t f := scan_frame_eq_muxFrame prm f 0 _ t
      _ = encodeText prm t f := (scan_frame_eq_muxFrame prm f 0 t t).symm

end Certificates

end Sys2Proof
end

section
/-! An encode run character by character (R140, R147): a step inside an encode runs the character at `scan`, or ends the
encode, and the steps of a write's encode end in the state that the write's one step answers. -/

namespace Sys2Proof

namespace Machine

/-! ### The step inside an encode -/

/-- With a character left to read a step inside an encode runs its instruction (R140). -/
theorem step_char {s : State} {e : EncodeRun} {c : Byte} (hr : s.resetAsserted = false) (he : s.encoding = some e)
    (hc : e.nextChar = some c) : step s = exec (decode (.char c)) s := by
  rw [step_encoding s e hr he, State.encodeStep, hc]

/-- Such a step moves the working state only, by the step of the character's class (R142 to R146). -/
theorem step_char_next {s : State} {e : EncodeRun} {c : Byte} (hr : s.resetAsserted = false)
    (he : s.encoding = some e) (hc : e.nextChar = some c) :
    step s = .next { s with encoding := some (e.classStep s.cfg.params (classOf c)) } := by
  rw [step_char hr he hc, exec_char_next he (by rw [hc]; rfl)]

/-- With none left a step inside an encode ends it (R147). -/
theorem step_encodeEnd {s : State} {e : EncodeRun} (hr : s.resetAsserted = false) (he : s.encoding = some e)
    (hn : e.nextChar = none) : step s = .next (s.finishEncode e) := by
  rw [step_encoding s e hr he, State.encodeStep, hn]

/-- A halted scan reads no more (R146). -/
theorem EncodeRun.nextChar_of_halted {e : EncodeRun} (h : e.halted = true) : e.nextChar = none := by
  simp [nextChar, h]

/-- A scan past the leftmost character reads no more (R140). -/
theorem EncodeRun.nextChar_of_scan_neg {e : EncodeRun} (h : e.scan < 0) : e.nextChar = none := by
  by_contra hn
  exact absurd (scan_nonneg (Option.isSome_iff_ne_none.2 hn)) (Int.not_le.2 h)

/-- A character placed by `withCode` is the next one its encode reads (log entry 8). -/
theorem State.withCode_char (s : State) (c : Byte) :
    ∃ e, (s.withCode (.char c)).encoding = some e ∧ e.nextChar = some c ∧
      (s.withCode (.char c)).resetAsserted = false := by
  unfold State.withCode State.withChar
  dsimp only
  split
  next e he => exact ⟨_, rfl, rfl, rfl⟩
  next hn => exact ⟨_, rfl, rfl, rfl⟩

/-- A character placed by `withCode` is run by the next step (log entry 8). -/
theorem step_withCode_char (s : State) (c : Byte) :
    step (s.withCode (.char c)) = exec (decode (.char c)) (s.withCode (.char c)) := by
  obtain ⟨e, he, hc, hr⟩ := s.withCode_char c
  exact step_char hr he hc

/-- A request placed by `withCode` is the one that the next step takes (log entry 8). -/
theorem step_withCode_request (s : State) (r : Request) :
    step (s.withCode (.request r)) =
      exec (decode (.request r)) { s with resetAsserted := false, fsm := .ready, encoding := none, held := [] } :=
  step_ready _ rfl rfl rfl

/-- The code of a table word that decodes is placed as that code (log entry 8). -/
theorem State.withFetchWord_of_decode {nbits w : Nat} {i : Instr} (h : decodeTableWord nbits w = some i) :
    ∃ c, decode c = i ∧ ∀ s : State, s.withFetchWord nbits w = s.withCode c := by
  obtain ⟨c, hc, hi⟩ := Option.map_eq_some_iff.1 h
  exact ⟨c, hi, fun s => by rw [State.withFetchWord, hc]⟩

/-! ### The steps of an encode -/

theorem runSteps_succ {s t : State} (h : step s = .next t) (k : Nat) : runSteps (k + 1) s = runSteps k t := by
  rw [runSteps, h]

/-- The characters still to read, the next one first: they begin the text, right to left, and the scan stands on the
first of them (R140). -/
structure EncodeRun.LeftToRead (e : EncodeRun) (cs : List Byte) : Prop where
  text : ∃ done, e.text = cs.reverse ++ done
  scan : e.scan = (cs.length : Int) - 1

theorem EncodeRun.leftToRead_start (f : Family) (unit : Nat) (text : List Byte) :
    (EncodeRun.start f unit text).LeftToRead text.reverse where
  text := ⟨[], by simp [start]⟩
  scan := by simp [start]

/-- Where the scan has not halted the next character is the first one still to read. -/
theorem EncodeRun.LeftToRead.nextChar {e : EncodeRun} {c : Byte} {cs : List Byte} (h : e.LeftToRead (c :: cs))
    (hrun : e.halted = false) : e.nextChar = some c := by
  obtain ⟨done, htext⟩ := h.text
  have hat : e.scan = Int.ofNat cs.length := by simp [h.scan]
  simp [EncodeRun.nextChar, hrun, hat, htext]

theorem EncodeRun.LeftToRead.nextChar_nil {e : EncodeRun} (h : e.LeftToRead []) : e.nextChar = none :=
  nextChar_of_scan_neg (by simp [h.scan])

/-- A step on the first of the characters leaves the others. -/
theorem EncodeRun.LeftToRead.classStep {e : EncodeRun} {c : Byte} {cs : List Byte} (h : e.LeftToRead (c :: cs))
    (p : Params) (cl : CharClass) : (e.classStep p cl).LeftToRead cs where
  text := by
    obtain ⟨done, htext⟩ := h.text
    exact ⟨c :: done, by simp [htext]⟩
  scan := by simp [h.scan]

/-- The steps of an encode run the scan of the characters still to read, and then end it, in at most one step more than
there are characters. -/
theorem runSteps_encode (cs : List Byte) {s : State} {e : EncodeRun} (hr : s.resetAsserted = false)
    (he : s.encoding = some e) (h : e.LeftToRead cs) :
    ∃ k ≤ cs.length + 1, runSteps k s = .next (s.finishEncode (EncodeRun.scanAll s.cfg.params cs e)) := by
  induction cs generalizing s e with
  | nil => exact ⟨1, le_rfl, runSteps_succ (step_encodeEnd hr he h.nextChar_nil) 0⟩
  | cons c cs ih =>
    rw [EncodeRun.scanAll]
    split
    next hhalt =>
      exact ⟨1, Nat.le_add_left _ _, runSteps_succ (step_encodeEnd hr he (EncodeRun.nextChar_of_halted hhalt)) 0⟩
    next hrun =>
      have hstep := step_char_next hr he (h.nextChar (Bool.eq_false_iff.2 hrun))
      obtain ⟨k, hk, hend⟩ :=
        ih (s := { s with encoding := some (e.classStep s.cfg.params (classOf c)) }) hr rfl (h.classStep _ _)
      exact ⟨k + 1, Nat.succ_le_succ hk, (runSteps_succ hstep k).trans hend⟩

/-- The end of an encode of an accepting state submits its frame (R242). -/
theorem State.finishEncode_of_no_encoding {s : State} (he : s.encoding = none) (e : EncodeRun) :
    s.finishEncode e = s.submitFrame e.family e.unit e.frame := by
  cases s
  cases he
  rfl

/-- A write that an accepting block admits submits the frame of its text (R242). -/
theorem exec_write_accepted {s : State} {id : DisplayId} {f : Family} {u : Nat} {text : List Byte}
    (ha : s.accepts = true) (hid : route id = some (f, u)) (ht : s.cfg.params.admitsText text = true) :
    exec (decode (.request (.write id text))) s = .next (s.submitFrame f u (encodeText s.cfg.params text f)) := by
  simp [exec_write, State.writeRequest, ha, hid, ht]

end Machine

namespace Certificates

open Machine

/-- Settles O26: it holds. The steps of the encode scan the text, and the frame of the scan is that of `encodeText`. -/
theorem characterStepsMakeTheWrite : Obligations.CharacterStepsMakeTheWrite := by
  unfold Obligations.CharacterStepsMakeTheWrite
  intro s id f u text ha hr ht hid
  have hframe : (EncodeRun.scanAll s.cfg.params text.reverse (EncodeRun.start f u text)).frame =
      encodeText s.cfg.params text f :=
    (scan_frame_eq_muxFrame _ f u text text).trans (scan_frame_eq_muxFrame _ f 0 text text).symm
  have hend : s.finishEncode (EncodeRun.scanAll s.cfg.params text.reverse (EncodeRun.start f u text)) =
      s.submitFrame f u (encodeText s.cfg.params text f) := by
    rw [State.finishEncode_of_no_encoding ha.2, hframe, EncodeRun.scanAll_family, EncodeRun.scanAll_unit]
    rfl
  obtain ⟨k, hk, hrun⟩ := runSteps_encode text.reverse (s := s.beginEncode f u text) hr rfl
    (EncodeRun.leftToRead_start f u text)
  rw [exec_write_accepted (s.accepts_iff.2 ha) hid ht, ← hend]
  exact ⟨k, by simpa using hk, hrun⟩

/-- Settles O56: it holds. Each clause is one branch of the step, on the state that the code is placed in. -/
theorem stepRunsTheDecodedInstruction : Obligations.StepRunsTheDecodedInstruction := by
  unfold Obligations.StepRunsTheDecodedInstruction
  refine ⟨fun s e c hr he hc => step_char hr he hc, fun s s' r hr ha htake => ?_, fun s c => ?_,
    step_withCode_request, fun s nbits w i hw => ?_, fun s e hr he hend => ?_⟩
  · obtain ⟨hf, he⟩ := ha
    rw [step_ready s hr he hf, State.readyStep, htake]
  · obtain ⟨e, he, -⟩ := s.withCode_char c
    exact ⟨e, he, step_withCode_char s c⟩
  · obtain ⟨c, rfl, hplaced⟩ := State.withFetchWord_of_decode hw
    refine ⟨⟨c, rfl, hplaced s⟩, ?_⟩
    rw [hplaced s]
    cases c with
    | char c => exact ⟨_, step_withCode_char s c⟩
    | request r => exact ⟨_, step_withCode_request s r⟩
  · obtain hhalt | hscan := hend
    · exact step_encodeEnd hr he (EncodeRun.nextChar_of_halted hhalt)
    · exact step_encodeEnd hr he (EncodeRun.nextChar_of_scan_neg hscan)

end Certificates

end Sys2Proof
end

section
/-! The shape of the bus trace of one transaction (R210): an accept begins it, and every move of the transactor up to
DONE or ABORTED keeps it. -/

namespace Sys2Proof

namespace Machine

/-! ### The events of a success -/

/-- The data bytes up to byte `k` are those before it and then byte `k` (R200). -/
theorem sentUpTo_succ {s : State} {k : Nat} {b : Byte} (hb : s.buf[k]? = some b) :
    sentUpTo s (k + 1) = sentUpTo s k ++ [.send b] := by
  simp [sentUpTo, sends, List.take_add_one, hb]

theorem sentUpTo_prefix (s : State) {j k : Nat} (h : j ≤ k) : sentUpTo s j <+: sentUpTo s k :=
  (List.prefix_append_right_inj _).2 ((List.take_prefix_take_left h).map _)

/-- What a transaction has emitted, at a known state of `fsm`. -/
theorem txEvents.of_fsm {s : State} {es : List Event} {f : Fsm} (h : txEvents s es) (hf : s.fsm = f) :
    txEvents (s.setFsm f) es := by
  subst hf
  exact h

/-- A stop that a parameter asks for is emitted (R199, R201). -/
theorem eq_append_ite_of_true {es as bs : List Event} {b : Bool} (hb : b = true) (h : es = as ++ bs) :
    es = as ++ if b = true then bs else [] := by
  rw [h, if_pos hb]

/-- A stop that a parameter does not ask for is not emitted (R199, R201). -/
theorem eq_append_ite_of_false {es as bs : List Event} {b : Bool} (hb : b = false) (h : es = as) :
    es = as ++ if b = true then bs else [] := by
  simp [h, hb]

/-- In a wait for the adapter a transaction not aborted has begun, and has emitted no more than a success does. -/
theorem txEvents_prefix_of_waits {s : State} {es : List Event} (hs : s.Inv) (hw : s.fsm.waits = true)
    (hne : s.fsm ≠ .abortStoppingWaitStop) (h : txEvents s es) :
    es ≠ [] ∧ es <+: sentUpTo s s.n ++ [.stop] := by
  have hsent {k : Nat} (hk : k ≤ s.n) : sentUpTo s k ≠ [] ∧ sentUpTo s k <+: sentUpTo s s.n ++ [.stop] :=
    ⟨by simp [sentUpTo], (sentUpTo_prefix s hk).trans (List.prefix_append _ _)⟩
  cases hf : s.fsm with
  | ready | idle | recovering | startingIssue | stoppingIssue | abortStoppingIssue | done | aborted =>
    rw [hf] at hw
    cases hw
  | startingWaitStart | addressWaitReady =>
    obtain rfl : es = [.start] := h.of_fsm hf
    simp [sentUpTo]
  | addressWaitComplete =>
    obtain rfl : es = sentUpTo s 0 := h.of_fsm hf
    exact hsent (Nat.zero_le _)
  | dataWaitReady =>
    obtain rfl : es = sentUpTo s s.i := h.of_fsm hf
    exact hsent hs.i_le
  | dataWaitComplete =>
    obtain rfl : es = sentUpTo s (s.i + 1) := h.of_fsm hf
    exact hsent (hs.data_lt (by rw [hf]; rfl))
  | stoppingWaitStop =>
    obtain rfl : es = sentUpTo s s.n ++ [Event.stop] := h.of_fsm hf
    simp
  | abortStoppingWaitStop => exact absurd hf hne

/-! ### What a move does to the trace -/

/-- A move that emits `new` keeps the shape where its state says so. -/
theorem TxTrace.emits {before : List Event} {s t : State} (new : List Event) (h : TxTrace before s)
    (ht : t.trace = s.trace ++ new) (hc : t.cfg = s.cfg) (hr : t.rcount = s.rcount)
    (hev : ∀ es, txEvents s es → txEvents t (es ++ new)) : TxTrace before t := by
  obtain ⟨es, he, htr⟩ := h
  exact ⟨es ++ new, hev es he, by rw [ht, htr, hc, hr, List.append_assoc _ es]⟩

/-- A move that emits nothing keeps the shape where its state says so. -/
theorem TxTrace.silent {before : List Event} {s t : State} (h : TxTrace before s) (ht : t.trace = s.trace)
    (hc : t.cfg = s.cfg) (hr : t.rcount = s.rcount) (hev : ∀ es, txEvents s es → txEvents t es) : TxTrace before t :=
  h.emits [] (by rw [ht, List.append_nil]) hc hr (by simpa using hev)

/-- A recovery iteration adds its two events, whatever its sample leads to (R194). -/
theorem TxTrace.recovers {before : List Event} {s t : State} (h : TxTrace before s) (hf : s.fsm = .recovering)
    (ht : t.trace = s.forceStop.trace) (hc : t.cfg = s.cfg) (hr : t.rcount = s.rcount + 1) (hev : txEvents t []) :
    TxTrace before t := by
  obtain ⟨es, he, htr⟩ := h
  obtain rfl : es = [] := he.of_fsm hf
  exact ⟨[], hev, by simp [ht, htr, hc, hr, recoveryEvents]⟩

/-- A transaction just accepted has emitted nothing (R192). -/
theorem TxTrace.accept (s : State) (d : Descriptor) : TxTrace s.trace (s.accept d) :=
  ⟨[], rfl, by simp [recoveryEvents]⟩

/-- Every move of the transactor up to the end of the transaction keeps the shape of its trace (R210). -/
theorem TxStep.txTrace {before : List Event} {s t : State} (h : TxStep s t) (hs : s.Inv) (hdone : s.fsm ≠ .done)
    (haborted : s.fsm ≠ .aborted) (htr : TxTrace before s) : TxTrace before t := by
  cases h with
  | idle hf =>
    refine htr.silent rfl rfl rfl fun es he => ?_
    cases s.answer .busIdle <;> exact he.of_fsm hf
  | recovered hf => exact htr.recovers hf rfl rfl rfl rfl
  | recoveryTimeout k hf _ _ hk hle =>
    have hlt := hs.recovery_lt k hk hf
    have hcount : s.forceStop.sampled.timeout.rcount = k := show s.rcount + 1 = k by omega
    exact htr.recovers hf rfl rfl rfl
      (.inr (.inr (.inr ⟨rfl, List.nil_prefix, fun _ => ⟨k, hk, hcount⟩⟩)))
  | recoveryAgain hf => exact htr.recovers hf rfl rfl rfl (by simp [txEvents, hf])
  | startIssue hf => exact htr.emits [.start] rfl rfl rfl fun es he => by rw [show es = [] from he.of_fsm hf]; rfl
  | started hf => exact htr.silent rfl rfl rfl fun es he => he.of_fsm hf
  | startFailed hf => exact htr.silent rfl rfl rfl fun es he => .inl ⟨rfl, he.of_fsm hf⟩
  | addressSent hf =>
    exact htr.emits [.send (addressByte s.addr7)] rfl rfl rfl fun es he => by
      rw [show es = [.start] from he.of_fsm hf]; rfl
  | addressAcked hf => exact htr.silent rfl rfl rfl fun es he => he.of_fsm hf
  | addressAckedEmpty hf _ _ _ hn =>
    refine htr.silent rfl rfl rfl fun es he => ?_
    show es = sentUpTo s s.n
    rw [hn]
    exact he.of_fsm hf
  | addressNack hf =>
    refine htr.silent rfl rfl rfl fun es he => ?_
    cases hstop : s.cfg.params.stopOnAddrNack with
    | true => exact .inl ⟨rfl, hstop, he.of_fsm hf⟩
    | false => exact .inr (.inl ⟨rfl, eq_append_ite_of_false hstop (he.of_fsm hf)⟩)
  | dataSent b hf _ _ hb =>
    exact htr.emits [.send b] rfl rfl rfl fun es he => by
      rw [show es = sentUpTo s s.i from he.of_fsm hf]; exact (sentUpTo_succ hb).symm
  | dataAcked hf =>
    have hi : s.i < s.n := hs.data_lt (by rw [hf]; rfl)
    refine htr.silent rfl rfl rfl fun es he => ?_
    split
    next => exact he.of_fsm hf
    next hlast =>
      show es = sentUpTo s s.n
      rw [show s.n = s.i + 1 by omega]
      exact he.of_fsm hf
  | dataNack hf =>
    have hi : s.i < s.n := hs.data_lt (by rw [hf]; rfl)
    refine htr.silent rfl rfl rfl fun es he => ?_
    cases hstop : s.cfg.params.stopOnDataNack with
    | true => exact .inr ⟨rfl, hstop, hi, he.of_fsm hf⟩
    | false => exact .inr (.inr (.inl ⟨rfl, hi, eq_append_ite_of_false hstop (he.of_fsm hf)⟩))
  | stopIssue hf =>
    exact htr.emits [.stop] rfl rfl rfl fun es he => by rw [show es = sentUpTo s s.n from he.of_fsm hf]; rfl
  | stopped hf => exact htr.silent rfl rfl rfl fun es he => he.of_fsm hf
  | abortStopIssue hf =>
    refine htr.emits [.stop] rfl rfl rfl fun es he => ?_
    obtain ⟨herr, hstop, rfl⟩ | ⟨herr, hstop, hi, rfl⟩ := he.of_fsm hf
    · exact .inl ⟨herr, hstop, rfl⟩
    · exact .inr ⟨herr, hstop, hi, rfl⟩
  | abortStopped hf | abortStopTimeout _ hf =>
    refine htr.silent rfl rfl rfl fun es he => ?_
    obtain ⟨herr, hstop, he⟩ | ⟨herr, hstop, hi, he⟩ := he.of_fsm hf
    · exact .inr (.inl ⟨herr, eq_append_ite_of_true hstop he⟩)
    · exact .inr (.inr (.inl ⟨herr, hi, eq_append_ite_of_true hstop he⟩))
  | waiting | polling => exact htr.silent rfl rfl rfl fun es he => he
  | waitTimeout _ hf hne =>
    refine htr.silent rfl rfl rfl fun es he => ?_
    obtain ⟨hbegun, hpre⟩ := txEvents_prefix_of_waits hs hf hne he
    exact .inr (.inr (.inr ⟨rfl, hpre, fun h => absurd h hbegun⟩))
  | done hf => exact absurd hf hdone
  | aborted hf => exact absurd hf haborted

end Machine

namespace Certificates

open Machine

/-- Settles O51: it holds. A transaction's state is not READY, so that its step is a move of the transactor. -/
theorem transactionTraceShapeKept : Obligations.TransactionTraceShapeKept := by
  unfold Obligations.TransactionTraceShapeKept
  refine ⟨TxTrace.accept, fun before s t hs hr hdone haborted htr h => ?_⟩
  have hbusy : s.fsm ≠ .ready := by
    obtain ⟨es, he, -⟩ := htr
    exact fun hf => he.of_fsm hf
  cases StepMove.of_step h with
  | reset hr' => simp [hr] at hr'
  | character _ e he | encodeEnd _ e he => exact absurd (hs.encode_wf e he).1 hbusy
  | request _ _ hf => exact absurd hf hbusy
  | transactor _ _ _ hm => exact hm.txTrace hs hdone haborted htr

end Certificates

end Sys2Proof
end

section
/-! The step of each state of `fsm`, one rule for each of its branches (R191 to R208). -/

namespace Sys2Proof

namespace Machine

open Certificates

variable {s : State}

/-- Outside READY the next step of a quiet block is the transactor's. -/
theorem step_eq_transactorStep (hq : Quiet s) {f : Fsm} (hf : s.fsm = f) (hne : f ≠ .ready := by decide) :
    step s = s.transactorStep :=
  step_transactor s hq.1 hq.2 (hf ▸ hne)

/-! ### A wait -/

/-- A step in a state that waits is the wait for its signal. Only the stop wait of an abort keeps the first error when
it times out (R191, R205). -/
theorem step_eq_wait {sig : Signal} (hq : Quiet s) (hw : WaitsFor s sig)
    (hd : s.fsm = .dataWaitReady → s.latched = true ∧ s.i < s.n ∧ s.i < s.buf.length) :
    ∃ k, step s = s.wait sig k
      (if s.fsm = .abortStoppingWaitStop then State.timeoutKeepingErr else State.timeout) := by
  obtain ⟨hf, rfl⟩ | ⟨hf, rfl⟩ | ⟨hf, rfl⟩ | ⟨hf, rfl⟩ | ⟨hf, rfl⟩ | ⟨hf, rfl⟩ | ⟨hf, rfl⟩ := hw <;>
    rw [step_eq_transactorStep hq hf, State.transactorStep, hf]
  case inr.inr.inr.inl =>
    obtain ⟨hl, hi, hlen⟩ := hd hf
    exact ⟨_, s.withDataByte_eq _ _ hl hi (List.getElem?_eq_getElem hlen)⟩
  all_goals exact ⟨_, rfl⟩

/-- A step of a wait on a true sample goes on with the wait's true branch (R191). -/
theorem step_of_wait_true {sig : Signal} {k : State → Out} {tm : State → State} (hq : Quiet s) {f : Fsm}
    (hf : s.fsm = f) (hstep : s.transactorStep = s.wait sig k tm) (ha : s.answer sig = true)
    (hne : f ≠ .ready := by decide) : step s = k s.waited := by
  rw [step_eq_transactorStep hq hf hne, hstep]
  exact s.wait_true sig k tm ha

/-! ### The idle check and recovery -/

/-- The idle check (R193). -/
theorem step_idle (hq : Quiet s) (hf : s.fsm = .idle) :
    step s = .next (s.sampled.setFsm (if s.answer .busIdle then .startingIssue else .recovering)) := by
  rw [step_eq_transactorStep hq hf, State.transactorStep, hf]
  rfl

theorem State.forceStop_eq (s : State) :
    s.forceStop = { s with
      trace := s.trace ++ [.forcedStop, .delay s.cfg.params.recoveryDelay], rcount := s.rcount + 1 } := by
  simp [State.forceStop, State.emit]

/-- A recovery iteration: its events, and then its sample (R194). -/
theorem step_recovering (hq : Quiet s) (hf : s.fsm = .recovering)
    (hl : s.latched = true ∨ s.cfg.params.recoveryLimit = none) :
    step s = .next s.forceStop.recoverySample := by
  rw [step_eq_transactorStep hq hf, State.transactorStep, hf]
  show s.stepRecovering = _
  unfold State.stepRecovering
  split
  next => rfl
  next hk => exact s.reading_latched _ (hl.resolve_right (by simp [hk]))

/-- The recovery loop is at its bound (R194). -/
theorem State.recoveryExhausted_iff (s : State) :
    s.recoveryExhausted = true ↔ ∃ k, s.cfg.params.recoveryLimit = some k ∧ k ≤ s.rcount := by
  unfold State.recoveryExhausted
  cases s.cfg.params.recoveryLimit <;> simp

/-- The bus is idle after a forced stop (R194). -/
theorem step_recovered (hq : Quiet s) (hf : s.fsm = .recovering)
    (hl : s.latched = true ∨ s.cfg.params.recoveryLimit = none) (ha : s.answer .busIdle = true) :
    step s = .next (s.forceStop.sampled.setFsm .startingIssue) := by
  rw [step_recovering hq hf hl, State.recoverySample, State.answer_forceStop, if_pos ha]

/-- The bus is not idle after the last forced stop (R194). -/
theorem step_recoveryTimeout (hq : Quiet s) (hf : s.fsm = .recovering)
    (hl : s.latched = true ∨ s.cfg.params.recoveryLimit = none) (ha : s.answer .busIdle = false) {k : Nat}
    (hk : s.cfg.params.recoveryLimit = some k) (hle : k ≤ s.rcount + 1) :
    step s = .next s.forceStop.sampled.timeout := by
  have hex : s.forceStop.recoveryExhausted = true := (State.recoveryExhausted_iff _).2 ⟨k, hk, hle⟩
  rw [step_recovering hq hf hl, State.recoverySample, State.answer_forceStop, if_neg (by simp [ha]), if_pos hex]

/-- The bus is not idle after a forced stop that is not the last (R194). -/
theorem step_recoveryAgain (hq : Quiet s) (hf : s.fsm = .recovering)
    (hl : s.latched = true ∨ s.cfg.params.recoveryLimit = none) (ha : s.answer .busIdle = false)
    (hk : ∀ k, s.cfg.params.recoveryLimit = some k → s.rcount + 1 < k) :
    step s = .next s.forceStop.sampled := by
  have hex : ¬ s.forceStop.recoveryExhausted = true := by
    rw [State.recoveryExhausted_iff]
    rintro ⟨k, hk', hle⟩
    exact absurd hle (Nat.not_le.2 (hk k hk'))
  rw [step_recovering hq hf hl, State.recoverySample, State.answer_forceStop, if_neg (by simp [ha]), if_neg hex]

/-! ### Start -/

/-- The start condition (R195). -/
theorem step_startIssue (hq : Quiet s) (hf : s.fsm = .startingIssue) :
    step s = .next ({ s.emit .start with wcount := 0 }.setFsm .startingWaitStart) := by
  rw [step_eq_transactorStep hq hf, State.transactorStep, hf]
  rfl

/-- A start that has ended: its result is the next sample (R196). -/
theorem step_startResult (hq : Quiet s) (hf : s.fsm = .startingWaitStart) (ha : s.answer .startDone = true) :
    step s = .next (
      if s.sampled.answer .startOk then s.waited.sampled.setFsm .addressWaitReady
      else s.waited.sampled.raiseAbort .busStartFailure false) :=
  step_of_wait_true hq hf (by rw [State.transactorStep, hf]; rfl) ha

/-! ### The address and data bytes -/

/-- The address byte (R198). -/
theorem step_addressSend (hq : Quiet s) (hl : s.latched = true) (hf : s.fsm = .addressWaitReady)
    (ha : s.answer .txReady = true) :
    step s = .next ((s.waited.emit (.send (addressByte s.addr7))).setFsm .addressWaitComplete) := by
  rw [step_of_wait_true hq hf (by rw [State.transactorStep, hf]; rfl) ha]
  exact s.waited.reading_latched _ hl

/-- The acknowledgment of the address byte (R199). -/
theorem step_addressAck (hq : Quiet s) (hl : s.latched = true) (hf : s.fsm = .addressWaitComplete)
    (ha : s.answer .txComplete = true) :
    step s = .next (
      if s.sampled.answer .ack then
        if 0 < s.n then { s.waited.sampled with i := 0 }.setFsm .dataWaitReady
        else s.waited.sampled.setFsm .stoppingIssue
      else s.waited.sampled.raiseAbort .addressNackFailure s.cfg.params.stopOnAddrNack) := by
  rw [step_of_wait_true hq hf (by rw [State.transactorStep, hf]; rfl) ha]
  dsimp only
  rw [s.waited.reading_latched _ hl, State.answer_waited]
  split <;> rfl

/-- A data byte (R200). -/
theorem step_dataSend (hq : Quiet s) (hl : s.latched = true) (hf : s.fsm = .dataWaitReady) (hi : s.i < s.n)
    {b : Byte} (hb : s.buf[s.i]? = some b) (ha : s.answer .txReady = true) :
    step s = .next ((s.waited.emit (.send b)).setFsm .dataWaitComplete) :=
  step_of_wait_true hq hf (by rw [State.transactorStep, hf]; exact s.withDataByte_eq _ b hl hi hb) ha

/-- The acknowledgment of a data byte (R201). -/
theorem step_dataAck (hq : Quiet s) (hl : s.latched = true) (hf : s.fsm = .dataWaitComplete)
    (ha : s.answer .txComplete = true) :
    step s = .next (
      if s.sampled.answer .ack then
        { s.waited.sampled with i := s.i + 1 }.setFsm (if s.i + 1 < s.n then .dataWaitReady else .stoppingIssue)
      else s.waited.sampled.raiseAbort (.dataNackFailure (BitVec.ofNat 8 s.i)) s.cfg.params.stopOnDataNack) := by
  rw [step_of_wait_true hq hf (by rw [State.transactorStep, hf]; rfl) ha]
  exact s.waited.reading_latched _ hl

/-! ### The stops, and the end of a transaction -/

/-- The stop of a success (R202). -/
theorem step_stopIssue (hq : Quiet s) (hf : s.fsm = .stoppingIssue) :
    step s = .next ({ s.emit .stop with wcount := 0 }.setFsm .stoppingWaitStop) := by
  rw [step_eq_transactorStep hq hf, State.transactorStep, hf]
  rfl

/-- The stop of a success is complete (R203). -/
theorem step_stopped (hq : Quiet s) (hf : s.fsm = .stoppingWaitStop) (ha : s.answer .stopComplete = true) :
    step s = .next (s.waited.setFsm .done) :=
  step_of_wait_true hq hf (by rw [State.transactorStep, hf]; rfl) ha

/-- The stop of a NACK (R204). -/
theorem step_abortStopIssue (hq : Quiet s) (hf : s.fsm = .abortStoppingIssue) :
    step s = .next ({ s.emit .stop with wcount := 0 }.setFsm .abortStoppingWaitStop) := by
  rw [step_eq_transactorStep hq hf, State.transactorStep, hf]
  rfl

/-- The stop of a NACK is complete (R205). -/
theorem step_abortStopped (hq : Quiet s) (hf : s.fsm = .abortStoppingWaitStop) (ha : s.answer .stopComplete = true) :
    step s = .next (s.waited.setFsm .aborted) :=
  step_of_wait_true hq hf (by rw [State.transactorStep, hf]; rfl) ha

/-- The step of DONE (R207). -/
theorem step_done (hq : Quiet s) (hf : s.fsm = .done) : step s = .next (s.endTransaction .success) := by
  rw [step_eq_transactorStep hq hf, State.transactorStep, hf]
  rfl

/-- The step of ABORTED (R208). -/
theorem step_aborted (hq : Quiet s) (hf : s.fsm = .aborted) (he : s.errLatched = true) :
    step s = .next (s.endTransaction (.error s.err)) := by
  rw [step_eq_transactorStep hq hf, State.transactorStep, hf]
  exact if_pos he

/-- A requester's transaction that is done returns SUCCESS to it (R207). -/
theorem step_done_requester (hq : Quiet s) (hf : s.fsm = .done) (hc : s.caller = .requester) :
    step s = .next ((s.returnResult .success).setFsm .ready) := by
  rw [step_done hq hf, State.endTransaction, hc]

/-- A requester's transaction that is aborted returns its error to it (R208). -/
theorem step_aborted_requester (hq : Quiet s) (hf : s.fsm = .aborted) (he : s.errLatched = true)
    (hc : s.caller = .requester) : step s = .next ((s.returnResult (.error s.err)).setFsm .ready) := by
  rw [step_aborted hq hf he, State.endTransaction, hc]

end Machine

namespace Certificates

open Machine

/-- Settles O38: it holds. The step of IDLE is one sample. -/
theorem idleCheck : Obligations.IdleCheck := by
  unfold Obligations.IdleCheck
  intro s hq hf
  exact step_idle hq hf

/-- Settles O39: it holds. The sample and the bound choose among three branches. -/
theorem recoveryIteration : Obligations.RecoveryIteration := by
  unfold Obligations.RecoveryIteration
  intro s hq hf hl
  dsimp only
  refine ⟨fun ha => ?_, fun ha => ⟨fun k hk hle => ?_, fun hk => ?_⟩⟩
  · rw [step_recovered hq hf hl ha, State.forceStop_eq]
    rfl
  · rw [step_recoveryTimeout hq hf hl ha hk hle, State.forceStop_eq]
    rfl
  · have hlt : ∀ k, s.cfg.params.recoveryLimit = some k → s.rcount + 1 < k := by
      rintro k hk'
      obtain hnone | ⟨k', hsome, hlt⟩ := hk
      · simp [hnone] at hk'
      · cases hsome.symm.trans hk'
        exact hlt
    rw [step_recoveryAgain hq hf hl ha hlt, State.forceStop_eq]
    rfl

/-- Settles O45: it holds. A step in each of the seven states is a wait, and a false sample leaves the bound to
decide. -/
theorem waitOnAFalseSample : Obligations.WaitOnAFalseSample := by
  unfold Obligations.WaitOnAFalseSample
  intro s sig hq hl hd hw ha
  have hlatched {k : Nat} (hk : s.cfg.params.waitLimit = some k) : s.latched = true :=
    hl.resolve_right fun h => by simp [hk] at h
  obtain ⟨k, hstep⟩ := step_eq_wait hq hw fun hf => ⟨hl.resolve_right fun h => h.2 hf, hd hf⟩
  refine ⟨fun hk => ?_, fun k hk hlt => ?_, fun k hk hle hne => ?_, fun k hk hle hf => ?_⟩
  · rw [hstep, s.wait_false_unbounded sig _ _ ha hk]
  · rw [hstep, s.wait_false_bounded sig _ _ k ha hk (hlatched hk), if_neg (Nat.not_le.2 hlt)]
  · rw [hstep, s.wait_false_bounded sig _ _ k ha hk (hlatched hk), if_pos hle, if_neg hne]
    rfl
  · rw [hstep, s.wait_false_bounded sig _ _ k ha hk (hlatched hk), if_pos hle, if_pos hf]
    rfl

/-- A wait on a false sample, in every waiting state but the stop wait of an abort (R191). -/
theorem falseWait_of_waitsFor {s : State} {sig : Signal} (hq : Quiet s) (hl : s.latched = true)
    (hd : s.fsm = .dataWaitReady → s.i < s.n ∧ s.i < s.buf.length) (hw : WaitsFor s sig)
    (hne : s.fsm ≠ .abortStoppingWaitStop) (ha : s.answer sig = false) : FalseWait s := by
  obtain ⟨hnone, hpoll, htimeout, -⟩ := waitOnAFalseSample s sig hq (.inl hl) hd hw ha
  exact ⟨hnone, hpoll, fun k hk hle => htimeout k hk hle hne⟩

/-- Settles O40: it holds. The two samples choose the branch, and a false `start_done` waits. -/
theorem startPhase : Obligations.StartPhase := by
  unfold Obligations.StartPhase
  intro s hq hl
  refine ⟨step_startIssue hq, fun hf ha => ⟨fun hok => ?_, fun hok => ?_⟩, fun hf ha => ?_⟩
  · rw [step_startResult hq hf ha, if_pos hok]
    rfl
  · rw [step_startResult hq hf ha, if_neg (by simp [hok])]
    rfl
  · exact falseWait_of_waitsFor hq hl (by simp [hf]) (by simp [WaitsFor, hf]) (by simp [hf]) ha

/-- Settles O41: it holds. The acknowledgment and `n` choose the branch, and a false sample waits. -/
theorem addressPhase : Obligations.AddressPhase := by
  unfold Obligations.AddressPhase
  intro s hq hl
  refine ⟨step_addressSend hq hl, fun hf ha => ⟨fun hack hn => ?_, fun hack hn => ?_, fun hack => ?_⟩,
    fun hf ha => ?_, fun hf ha => ?_⟩
  · rw [step_addressAck hq hl hf ha, if_pos hack, if_pos hn]
    rfl
  · rw [step_addressAck hq hl hf ha, if_pos hack, if_neg (by simp [hn])]
    rfl
  · rw [step_addressAck hq hl hf ha, if_neg (by simp [hack])]
    rfl
  · exact falseWait_of_waitsFor hq hl (by simp [hf]) (by simp [WaitsFor, hf]) (by simp [hf]) ha
  · exact falseWait_of_waitsFor hq hl (by simp [hf]) (by simp [WaitsFor, hf]) (by simp [hf]) ha

/-- Settles O42: it holds. The acknowledgment chooses the branch, and a false sample waits. -/
theorem dataPhase : Obligations.DataPhase := by
  unfold Obligations.DataPhase
  intro s b hq hl
  refine ⟨fun hf hi hb ha => step_dataSend hq hl hf hi hb ha, fun hf ha => ⟨fun hack => ?_, fun hack => ?_⟩,
    fun hf hi hb ha => ?_, fun hf ha => ?_⟩
  · rw [step_dataAck hq hl hf ha, if_pos hack]
    rfl
  · rw [step_dataAck hq hl hf ha, if_neg (by simp [hack])]
    rfl
  · have hlen : s.i < s.buf.length := (List.getElem?_eq_some_iff.1 hb).1
    exact falseWait_of_waitsFor hq hl (fun _ => ⟨hi, hlen⟩) (by simp [WaitsFor, hf]) (by simp [hf]) ha
  · exact falseWait_of_waitsFor hq hl (by simp [hf]) (by simp [WaitsFor, hf]) (by simp [hf]) ha

/-- Settles O43: it holds. Each stop is issued and then waited for, by the two kinds of wait. -/
theorem stopPhases : Obligations.StopPhases := by
  unfold Obligations.StopPhases
  intro s hq hl
  refine ⟨step_stopIssue hq, step_stopped hq, step_abortStopIssue hq, step_abortStopped hq, fun hf ha => ?_,
    fun hf ha => ?_⟩
  · exact falseWait_of_waitsFor hq hl (by simp [hf]) (by simp [WaitsFor, hf]) (by simp [hf]) ha
  · obtain ⟨hnone, hpoll, -, htimeout⟩ := waitOnAFalseSample s .stopComplete hq (.inl hl) (by simp [hf])
      (by simp [WaitsFor, hf]) ha
    exact ⟨hnone, hpoll, fun k hk hle => htimeout k hk hle hf⟩

/-- Settles O44: it holds. DONE and ABORTED return to the requester. -/
theorem transactionReturnsItsResult : Obligations.TransactionReturnsItsResult := by
  unfold Obligations.TransactionReturnsItsResult
  intro s hq hc
  exact ⟨fun hf => step_done_requester hq hf hc, fun hf he => step_aborted_requester hq hf he hc⟩

end Certificates

end Sys2Proof
end

section
/-! The requests that an accepting block takes (R241, R242), and an initialise request from its setup to its end
(R250). -/

namespace Sys2Proof

namespace Machine

/-- READY takes a request wherever one is held (R241). -/
theorem State.takeHeld_isSome {s : State} (h : s.held ≠ []) : ∃ r s', s.takeHeld = some (r, s') := by
  unfold State.takeHeld
  split
  next hnil => exact absurd hnil h
  next => exact ⟨_, _, rfl⟩
  next => exact ⟨_, _, rfl⟩

/-- The end of a write to a SmallFamily unit accepts its descriptor of seven bytes (R170, R192). -/
theorem State.submitFrame_small (s : State) {unit : Nat} (hu : unit ≤ 2) {frame : List Byte}
    (hlen : frame.length = 5) :
    s.submitFrame .small unit frame = { s with
      caller := .requester
      addr7 := s.cfg.params.smallAddr
      buf := [s.cfg.params.resetDataPointer, deviceSelect unit] ++ frame ++ s.buf.drop 7
      n := 7
      i := 0
      rcount := 0
      wcount := 0
      latched := true
      fsm := .idle } := by
  simp [State.submitFrame, frameFor, smallFamilyFrame, Nat.not_lt.2 hu, State.accept, latchBytes, hlen,
    List.take_of_length_le]

/-- The end of a write to a LargeFamily line accepts its descriptor of thirteen bytes (R172, R192). -/
theorem State.submitFrame_large (s : State) {line : Nat} (hu : line ≤ 1) {frame : List Byte}
    (hlen : frame.length = 8) :
    s.submitFrame .large line frame = { s with
      caller := .requester
      addr7 := s.cfg.params.largeAddr
      buf := [s.cfg.params.commandFlag, s.cfg.params.lineDevAddr line, s.cfg.params.commandFlag,
          s.cfg.params.dataPointerZero, s.cfg.params.dataFlag] ++ frame.take 7 ++ [s.cfg.params.paddingByte] ++
        s.buf.drop 13
      n := 13
      i := 0
      rcount := 0
      wcount := 0
      latched := true
      fsm := .idle } := by
  simp [State.submitFrame, frameFor, largeFamilyFrame, Nat.not_lt.2 hu, State.accept, latchBytes, hlen]

/-- The loop of R250 over delays alone ends with its first error. -/
theorem State.runInit_ends (first : Result) (ds : List Nat) (s : State) :
    State.runInit first (ds.map InitItem.delay) s =
      { s with trace := s.trace ++ ds.map Event.delay }.finishInit first := by
  simpa [State.runInit] using State.runInit_delays first ds [] s

/-- An error ends an initialise request where INIT_STOP_ON_ERROR is true (R250). -/
theorem State.endTransaction_initialise_stops {s : State} {first r : Result} {rest : List InitItem}
    (hc : s.caller = .initialise first rest) (h : r ≠ .success ∧ s.cfg.params.initStopOnError = true) :
    s.endTransaction r = ({ s with result := r }.setFsm .ready).finishInit (keepFirst first r) := by
  rw [State.endTransaction, hc]
  exact if_pos h

/-- Otherwise its loop goes on over the items left (R250). -/
theorem State.endTransaction_initialise_goesOn {s : State} {first r : Result} {rest : List InitItem}
    (hc : s.caller = .initialise first rest) (h : ¬ (r ≠ .success ∧ s.cfg.params.initStopOnError = true)) :
    s.endTransaction r = State.runInit (keepFirst first r) rest ({ s with result := r }.setFsm .ready) := by
  rw [State.endTransaction, hc]
  exact if_neg h

end Machine

namespace Certificates

open Machine

/-- Settles O29: it holds. A frame of the family has five bytes, all of which the descriptor sends. -/
theorem writeSmallIsAccepted : Obligations.WriteSmallIsAccepted := by
  unfold Obligations.WriteSmallIsAccepted
  intro s text ha ht
  have hwrite {id : DisplayId} {unit : Nat} (hid : route id = some (.small, unit)) (hu : unit ≤ 2) :=
    (exec_write_accepted (s.accepts_iff.2 ha) hid ht).trans
      (congrArg _ (s.submitFrame_small hu (encodeText_length s.cfg.params text .small)))
  exact ⟨hwrite (id := 2) rfl (by decide), hwrite (id := 3) rfl (by decide), hwrite (id := 4) rfl (by decide)⟩

/-- Settles O30: it holds. A frame of the family has eight bytes, of which the descriptor sends seven. -/
theorem writeLargeIsAccepted : Obligations.WriteLargeIsAccepted := by
  unfold Obligations.WriteLargeIsAccepted
  intro s text ha ht
  have hwrite {id : DisplayId} {line : Nat} (hid : route id = some (.large, line)) (hu : line ≤ 1) :=
    (exec_write_accepted (s.accepts_iff.2 ha) hid ht).trans
      (congrArg _ (s.submitFrame_large hu (encodeText_length s.cfg.params text .large)))
  exact ⟨hwrite (id := 0) rfl (by decide), hwrite (id := 1) rfl (by decide)⟩

/-- Settles O34: it holds. Taking a request has one outcome where one is held, and none where none is. -/
theorem readyTakesOneHeldRequest : Obligations.ReadyTakesOneHeldRequest := by
  unfold Obligations.ReadyTakesOneHeldRequest
  refine ⟨fun s h => ?_, fun s hr ha h => ?_⟩
  · obtain ⟨r, s', htake⟩ := State.takeHeld_isSome h
    obtain ⟨hr, rfl⟩ := State.takeHeld_cases htake
    exact ⟨r, hr, htake⟩
  · rw [step_ready s hr ha.2 ha.1]
    simp [State.readyStep, State.takeHeld, h]

/-- Settles O35: it holds. The loop of R250 emits the leading delays, and then ends or accepts. -/
theorem initEmitsSetupThenRuns : Obligations.InitEmitsSetupThenRuns := by
  unfold Obligations.InitEmitsSetupThenRuns
  intro s hz delays ha
  have hexec : exec (.init hz) s = .next (State.runInit .success s.cfg.params.initSequence (s.emitSetup hz)) :=
    if_pos (s.accepts_iff.2 ha)
  dsimp only
  refine ⟨fun hseq => ?_, fun a bytes rest hseq => ?_⟩ <;> rw [hexec, hseq]
  · rw [State.runInit_ends, State.emitSetup_trace]
    simp [State.finishInit, State.returnResult, State.emitSetup, State.emit, ha.1]
  · rw [State.runInit_delays, State.emitSetup_trace]
    rfl

/-- Settles O36: it holds. The step of DONE or ABORTED hands the result to the loop of R250, which ends or goes on. -/
theorem initKeepsTheFirstError : Obligations.InitKeepsTheFirstError := by
  unfold Obligations.InitKeepsTheFirstError
  intro s first r delays rest hq hc hend
  have hstep : step s = .next (s.endTransaction r) := by
    obtain ⟨hf, rfl⟩ | ⟨hf, he, rfl⟩ := hend
    · exact step_done hq hf
    · exact step_aborted hq hf he
  dsimp only
  rw [hstep]
  refine ⟨fun hstop => ?_, fun hgo => ⟨fun hrest => ?_, fun a bytes items hrest => ?_⟩⟩
  · rw [State.endTransaction_initialise_stops hc hstop]
    rfl
  · rw [State.endTransaction_initialise_goesOn hc hgo, hrest, List.append_nil, State.runInit_ends]
    rfl
  · rw [State.endTransaction_initialise_goesOn hc hgo, hrest, State.runInit_delays]
    rfl

end Certificates

end Sys2Proof
end

section
/-! Where a step leads (R209, R211): an accepting block goes to READY or IDLE only, no later phase leads back to an
earlier one, and each abort has its source. -/

namespace Sys2Proof

namespace Machine

/-! ### The ends of requests and transactions -/

/-- The loop of an initialise request leads to READY or to its next transaction (R250). -/
theorem InitLoop.fsm_eq {first : Result} {s t : State} (h : InitLoop first s t) : t.fsm = .ready ∨ t.fsm = .idle := by
  cases h with
  | ended => exact .inl rfl
  | accepted => exact .inr rfl

/-- A request leaves the transactor in READY or takes it to IDLE (R192, R240). -/
theorem RequestMove.fsm_eq {s t : State} {r : Request} (h : RequestMove s r t) (hf : s.fsm = .ready) :
    t.fsm = .ready ∨ t.fsm = .idle := by
  cases h with
  | held | rejected => exact .inl hf
  | written => exact .inr rfl
  | initialised _ _ _ ht => exact ht.fsm_eq

/-- The end of a transaction leads to READY or to the next transaction of an initialise request (R207, R208, R250). -/
theorem State.endTransaction_fsm (s : State) (r : Result) :
    (s.endTransaction r).fsm = .ready ∨ (s.endTransaction r).fsm = .idle := by
  obtain ⟨-, h⟩ | ⟨first, rest, -, h⟩ := s.endTransaction_cases r <;> rw [h]
  · exact .inl rfl
  · unfold State.resumeInit
    split
    · exact .inl rfl
    · obtain ⟨ds, ⟨-, h⟩ | ⟨a, bytes, items, -, h⟩⟩ :=
        State.runInit_cases (keepFirst first r) rest ({ s with result := r }.setFsm .ready) <;> rw [h]
      · exact .inl rfl
      · exact .inr rfl

/-- `raise Abort` leads to ABORTED or ABORT_STOPPING (R268). -/
theorem State.raiseAbort_phase (s : State) (e : Err) (b : Bool) :
    (s.raiseAbort e b).fsm.phase = .aborted ∨ (s.raiseAbort e b).fsm.phase = .abortStopping := by
  cases b
  · exact .inl rfl
  · exact .inr rfl

/-! ### The later phases -/

/-- The phases from the address byte to the stop, after which no step goes back (R209). -/
def Phase.Late (p : Phase) : Prop := p = .address ∨ p = .data ∨ p = .stopping ∨ p = .abortStopping

/-- The phases before the address byte. -/
def Phase.Early (p : Phase) : Prop := p = .idle ∨ p = .recovering ∨ p = .starting

/-- No move of the transactor leads from a later phase to an earlier one (R209). -/
theorem TxStep.not_early {s t : State} (h : TxStep s t) (hs : s.fsm.phase.Late) : ¬ t.fsm.phase.Early := by
  cases h with
  | idle hf | recovered hf | recoveryTimeout _ hf | recoveryAgain hf | startIssue hf | started hf | startFailed hf
  | done hf | aborted hf => simp [Phase.Late, hf, Fsm.phase] at hs
  | addressSent | addressAcked | addressAckedEmpty | dataSent | stopIssue | stopped | abortStopIssue | abortStopped
  | waitTimeout | abortStopTimeout => simp [Phase.Early, Fsm.phase]
  | dataAcked =>
    dsimp only [State.setFsm_fsm]
    split <;> simp [Phase.Early, Fsm.phase]
  | addressNack | dataNack =>
    obtain h | h := s.waited.sampled.raiseAbort_phase _ _ <;> rw [h] <;> simp [Phase.Early]
  | waiting | polling =>
    show ¬ s.fsm.phase.Early
    obtain h | h | h | h := hs <;> simp [Phase.Early, h]

/-! ### The sources of an abort -/

/-- The aborting phases (R211). -/
def Phase.Aborting (p : Phase) : Prop := p = .aborted ∨ p = .abortStopping

/-- The error that a step from `s` latches on its way to an abort in `t`, by its phase (R211). -/
def AbortSource (s t : State) : Prop :=
  (s.fsm.phase = .starting ∧ t.err = .busStartFailure) ∨
  (s.fsm.phase = .address ∧ t.err = .addressNackFailure) ∨
  (s.fsm.phase = .data ∧ t.err = .dataNackFailure (BitVec.ofNat 8 s.i)) ∨
  (t.err = .timeoutError ∧ t.fsm.phase = .aborted ∧
    ((s.fsm.phase = .recovering ∧ s.cfg.params.recoveryLimit ≠ none) ∨
     (s.fsm.waits = true ∧ s.cfg.params.waitLimit ≠ none)))

/-- READY and IDLE are no aborting phases. -/
theorem Fsm.not_aborting_of_ready_or_idle {f : Fsm} (h : f = .ready ∨ f = .idle) : ¬ f.phase.Aborting := by
  obtain rfl | rfl := h <;> simp [Phase.Aborting, Fsm.phase]

/-- A move of the transactor that leads to an abort latches the error of its phase (R211). -/
theorem TxStep.abortSource {s t : State} (h : TxStep s t) (ht : t.fsm.phase.Aborting)
    (hs : s.fsm.phase ≠ .abortStopping) : AbortSource s t := by
  cases h with
  | startFailed hf => exact .inl ⟨by rw [hf]; rfl, rfl⟩
  | addressNack hf => exact .inr (.inl ⟨by rw [hf]; rfl, rfl⟩)
  | dataNack hf => exact .inr (.inr (.inl ⟨by rw [hf]; rfl, rfl⟩))
  | recoveryTimeout k hf _ _ hk => exact .inr (.inr (.inr ⟨rfl, rfl, .inl ⟨by rw [hf]; rfl, by simp [hk]⟩⟩))
  | waitTimeout _ hf _ hw => exact .inr (.inr (.inr ⟨rfl, rfl, .inr ⟨hf, by simp [hw]⟩⟩))
  | abortStopIssue hf | abortStopped hf | abortStopTimeout _ hf => exact absurd (by rw [hf]; rfl) hs
  | idle =>
    cases h : s.answer .busIdle <;> simp [Phase.Aborting, Fsm.phase, h] at ht
  | dataAcked =>
    dsimp only [State.setFsm_fsm] at ht
    split at ht <;> simp [Phase.Aborting, Fsm.phase] at ht
  | recovered | startIssue | started | addressSent | addressAcked | addressAckedEmpty | dataSent | stopIssue
  | stopped => simp [Phase.Aborting, Fsm.phase] at ht
  | recoveryAgain hf =>
    have hphase : s.fsm.phase.Aborting := ht
    simp [Phase.Aborting, Fsm.phase, hf] at hphase
  | waiting hf | polling _ hf =>
    obtain h | h : s.fsm.phase = .aborted ∨ s.fsm.phase = .abortStopping := ht
    · rw [(Fsm.phase_eq_aborted_iff _).1 h] at hf
      cases hf
    · exact absurd h hs
  | done | aborted => exact absurd ht (Fsm.not_aborting_of_ready_or_idle (s.endTransaction_fsm _))

end Machine

namespace Certificates

open Machine

/-- Settles O52: it holds. Reset leads to READY, and no other move of a later phase leads to an earlier one. -/
theorem noStepGoesBack : Obligations.NoStepGoesBack := by
  unfold Obligations.NoStepGoesBack
  intro s t he hs h
  have hnot : ¬ t.fsm.phase.Early := by
    cases StepMove.of_step h with
    | reset => simp [Phase.Early, State.applyReset, State.resetWith, Fsm.phase]
    | character _ e he' | encodeEnd _ e he' => simp [he] at he'
    | request _ _ hf => simp [hf, Fsm.phase] at hs
    | transactor _ _ _ hm => exact hm.not_early hs
  exact ⟨fun h => hnot (.inl h), fun h => hnot (.inr (.inl h)), fun h => hnot (.inr (.inr h))⟩

/-- Settles O53: it holds. Only a move of the transactor leads to an abort, and it latches the error of its phase. -/
theorem abortSources : Obligations.AbortSources := by
  unfold Obligations.AbortSources
  intro s t hr he h ht hs
  cases StepMove.of_step h with
  | reset hr' => simp [hr] at hr'
  | character _ e he' | encodeEnd _ e he' => simp [he] at he'
  | request _ _ hf r s' htake hm =>
    obtain ⟨k, d, -, rfl⟩ := State.takeHeld_leaves htake
    exact absurd ht (Fsm.not_aborting_of_ready_or_idle (hm.fsm_eq hf))
  | transactor _ _ _ hm => exact hm.abortSource ht hs

end Certificates

end Sys2Proof
end

section
/-! Whole runs (R210, R296): a wait or a recovery that goes on for ever, a recovery at its limit, and a transaction up
to any of its bytes, to its success, or to the first byte that is not acknowledged. -/

namespace Sys2Proof

namespace Machine

open Certificates

/-! ### Runs and settled answers -/

/-- A run is its first steps and then the others. -/
theorem runSteps_add {k : Nat} {s t : State} (h : runSteps k s = .next t) (m : Nat) :
    runSteps (k + m) s = runSteps m t := by
  induction k generalizing s with
  | zero =>
    cases h
    rw [Nat.zero_add]
  | succ k ih =>
    rw [Nat.succ_add]
    rw [runSteps] at h ⊢
    split at h
    next hstep => exact ih h
    next => cases h
    next => cases h

/-- The next settled answer is what a sample reads. -/
theorem State.answer_of_getElem? {s : State} {b : Bool} (sig : Signal) (h : s.answers[0]? = some b) :
    s.answer sig = b := by
  obtain ⟨rest, hrest⟩ := List.head?_eq_some_iff.1 (List.head?_eq_getElem?.trans h)
  exact s.answer_cons sig b rest hrest

theorem getElem?_replicate_append {b : Bool} {k m : Nat} (rest : List Bool) (h : m < k) :
    (List.replicate k b ++ rest)[m]? = some b := by
  rw [List.getElem?_append_left (by simpa), List.getElem?_replicate_of_lt h]

theorem drop_replicate_append {b : Bool} (k : Nat) (rest : List Bool) : (List.replicate k b ++ rest).drop k = rest :=
  List.drop_left' List.length_replicate

/-- Outside READY a block that meets the invariant is inside no encode (R242). -/
theorem State.Inv.quiet {s : State} (hs : s.Inv) (hr : s.resetAsserted = false) (hf : s.fsm ≠ .ready) : Quiet s :=
  ⟨hr, Option.eq_none_iff_forall_not_mem.2 fun e he => hf (hs.encode_wf e he).1⟩

/-! ### A wait with no limit -/

theorem waitsFor_of_waits {s : State} (h : s.fsm.waits = true) : ∃ sig, WaitsFor s sig := by
  unfold WaitsFor
  cases hf : s.fsm <;> simp [hf, Fsm.waits] at h ⊢

/-- A wait with no limit stays where it is on a false sample (R191). -/
theorem step_waiting {s : State} (hs : s.Inv) (hr : s.resetAsserted = false) (hw : s.fsm.waits = true)
    (hlim : s.cfg.params.waitLimit = none) (ha : s.answers[0]? = some false) : step s = .next s.sampled := by
  have hf : s.fsm ≠ .ready := fun h => by simp [h, Fsm.waits] at hw
  have hl := hs.busy_latched (s.busy_iff.2 hf)
  have hdata (h : s.fsm = .dataWaitReady) : s.i < s.n ∧ s.i < s.buf.length := by
    have hi : s.i < s.n := hs.data_lt (by rw [h]; rfl)
    exact ⟨hi, hs.buf_len ▸ hi.trans_le hs.n_le⟩
  obtain ⟨sig, hsig⟩ := waitsFor_of_waits hw
  exact (waitOnAFalseSample s sig (hs.quiet hr hf) (.inl hl) hdata hsig (State.answer_of_getElem? sig ha)).1 hlim

/-! ### Recovery -/

/-- The transaction of `s`, just accepted, after `j` recovery iterations that have found the bus busy (R194). -/
def State.inRecovery (s : State) (j : Nat) : State :=
  { s with
    fsm := .recovering
    trace := s.trace ++ recoveryEvents s.cfg.params.recoveryDelay j
    rcount := j
    answers := s.answers.drop (j + 1)
    draws := s.draws + (j + 1) }

/-- The bus is busy at the idle check (R193). -/
theorem step_toRecovery {s : State} (hq : Quiet s) (hf : s.fsm = .idle) (hfresh : s.rcount = 0)
    (ha : s.answers[0]? = some false) : step s = .next (s.inRecovery 0) := by
  rw [step_idle hq hf, State.answer_of_getElem? _ ha]
  simp [State.inRecovery, State.sampled, State.setFsm, recoveryEvents, hfresh]

theorem State.inRecovery_answer {s : State} {j : Nat} {b : Bool} (sig : Signal) (ha : s.answers[j + 1]? = some b) :
    (s.inRecovery j).answer sig = b :=
  State.answer_of_getElem? sig (by simpa [State.inRecovery] using ha)

/-- A recovery iteration that finds the bus busy, but for what its sample leads to (R194). -/
theorem State.inRecovery_forceStop_sampled (s : State) (j : Nat) :
    (s.inRecovery j).forceStop.sampled = s.inRecovery (j + 1) := by
  simp [State.forceStop_eq, State.inRecovery, State.sampled, recoveryEvents, Nat.add_assoc]

/-- A bus that stays busy is found so for as many iterations as the limit leaves (R194). -/
theorem runSteps_inRecovery {s : State} (hs : s.Inv) (hr : s.resetAsserted = false) (hf : s.fsm = .idle) (j : Nat)
    (ha : ∀ m ≤ j, s.answers[m]? = some false) (hk : ∀ k, s.cfg.params.recoveryLimit = some k → j < k) :
    runSteps (j + 1) s = .next (s.inRecovery j) := by
  have hq := hs.quiet hr (by simp [hf])
  induction j with
  | zero => exact runSteps_succ (step_toRecovery hq hf (hs.idle_fresh hf) (ha 0 le_rfl)) 0
  | succ j ih =>
    have hl : s.latched = true := hs.busy_latched (s.busy_iff.2 (by simp [hf]))
    have hrun := ih (fun m hm => ha m (by omega)) (fun k hk' => Nat.lt_of_succ_lt (hk k hk'))
    have hstep : step (s.inRecovery j) = .next (s.inRecovery (j + 1)) := by
      rw [step_recoveryAgain (s := s.inRecovery j) hq rfl (.inl hl) (State.inRecovery_answer _ (ha _ le_rfl)) hk,
        State.inRecovery_forceStop_sampled]
    exact (runSteps_add hrun 1).trans (runSteps_succ hstep 0)

/-! ### A transaction under way -/

/-- The transaction of `s`, in state `f`, with `es` emitted since, `m` samples used up, byte `i` at hand, and no false
poll of the present wait. -/
def State.underway (s : State) (f : Fsm) (es : List Event) (m i : Nat) : State :=
  { s with
    fsm := f
    trace := s.trace ++ es
    wcount := 0
    i := i
    answers := s.answers.drop m
    draws := s.draws + m }

section

variable {s : State} {es : List Event} {m i : Nat}

theorem State.underway_answer {f : Fsm} {b : Bool} (sig : Signal) (ha : s.answers[m]? = some b) :
    (s.underway f es m i).answer sig = b :=
  State.answer_of_getElem? sig (by simpa [State.underway] using ha)

theorem underway_quiet (hq : Quiet s) {f : Fsm} : Quiet (s.underway f es m i) := hq

theorem State.underway_sampled (f : Fsm) : (s.underway f es m i).sampled = s.underway f es (m + 1) i := by
  simp [State.underway, State.sampled, Nat.add_assoc]

theorem State.underway_waited (f : Fsm) : (s.underway f es m i).waited = s.underway f es (m + 1) i := by
  rw [State.waited, State.underway_sampled]
  rfl

theorem State.underway_emit (f : Fsm) (e : Event) :
    (s.underway f es m i).emit e = s.underway f (es ++ [e]) m i := by
  simp [State.underway, State.emit]

/-- The idle check finds the bus idle, and the start condition is issued (R193, R195). -/
theorem runSteps_underway_start (hq : Quiet s) (hf : s.fsm = .idle) (ha : s.answers[0]? = some true) :
    runSteps 2 s = .next (s.underway .startingWaitStart [.start] 1 s.i) := by
  have hidle := step_idle hq hf
  rw [State.answer_of_getElem? _ ha, if_pos rfl] at hidle
  have hstart :
      step (s.sampled.setFsm .startingIssue) = .next (s.underway .startingWaitStart [.start] 1 s.i) := by
    rw [step_startIssue (s := s.sampled.setFsm .startingIssue) hq rfl]
    simp [State.underway, State.sampled, State.setFsm, State.emit]
  exact (runSteps_succ hidle 1).trans (runSteps_succ hstart 0)

/-- The start condition succeeds (R196). -/
theorem step_underway_started (hq : Quiet s) (hdone : s.answers[m]? = some true) (hok : s.answers[m + 1]? = some true) :
    step (s.underway .startingWaitStart es m i) = .next (s.underway .addressWaitReady es (m + 2) i) := by
  rw [step_startResult (underway_quiet hq) rfl (State.underway_answer _ hdone), State.underway_sampled,
    State.underway_answer _ hok, if_pos rfl, State.underway_waited, State.underway_sampled]
  rfl

/-- The address byte is sent (R198). -/
theorem step_underway_addressSend (hq : Quiet s) (hl : s.latched = true) (ha : s.answers[m]? = some true) :
    step (s.underway .addressWaitReady es m i) =
      .next (s.underway .addressWaitComplete (es ++ [.send (addressByte s.addr7)]) (m + 1) i) := by
  rw [step_addressSend (underway_quiet hq) hl rfl (State.underway_answer _ ha), State.underway_waited,
    State.underway_emit]
  rfl

/-- Where the transaction goes once the address or a byte is acknowledged and byte `j` comes next (R199, R201). -/
def State.toByte (s : State) (j : Nat) : Fsm := if j < s.n then .dataWaitReady else .stoppingIssue

theorem State.toByte_of_lt {j : Nat} (h : j < s.n) : s.toByte j = .dataWaitReady := if_pos h

theorem State.toByte_n (s : State) : s.toByte s.n = .stoppingIssue := if_neg (lt_irrefl _)

/-- The address byte is acknowledged (R199). -/
theorem step_underway_addressAck (hq : Quiet s) (hl : s.latched = true) (hi : s.i ≤ s.n)
    (hcomplete : s.answers[m]? = some true) (hack : s.answers[m + 1]? = some true) :
    step (s.underway .addressWaitComplete es m s.i) = .next (s.underway (s.toByte 0) es (m + 2) 0) := by
  rw [step_addressAck (underway_quiet hq) hl rfl (State.underway_answer _ hcomplete), State.underway_sampled,
    State.underway_answer _ hack, if_pos rfl, State.underway_waited, State.underway_sampled, State.toByte]
  show Host.Outcome.next (if 0 < s.n then _ else _) = _
  split
  next => rfl
  next hn =>
    have hzero : s.i = 0 := by omega
    rw [hzero]
    rfl

/-- A data byte is sent (R200). -/
theorem step_underway_dataSend (hq : Quiet s) (hl : s.latched = true) (hi : i < s.n) {b : Byte}
    (hb : s.buf[i]? = some b) (ha : s.answers[m]? = some true) :
    step (s.underway .dataWaitReady es m i) = .next (s.underway .dataWaitComplete (es ++ [.send b]) (m + 1) i) := by
  rw [step_dataSend (underway_quiet hq) hl rfl hi hb (State.underway_answer _ ha), State.underway_waited,
    State.underway_emit]
  rfl

/-- A data byte is acknowledged (R201). -/
theorem step_underway_dataAck (hq : Quiet s) (hl : s.latched = true) (hcomplete : s.answers[m]? = some true)
    (hack : s.answers[m + 1]? = some true) :
    step (s.underway .dataWaitComplete es m i) = .next (s.underway (s.toByte (i + 1)) es (m + 2) (i + 1)) := by
  rw [step_dataAck (underway_quiet hq) hl rfl (State.underway_answer _ hcomplete), State.underway_sampled,
    State.underway_answer _ hack, if_pos rfl, State.underway_waited, State.underway_sampled]
  rfl

/-- A data byte is not acknowledged, and no stop is asked for (R201). -/
theorem step_underway_dataNack (hq : Quiet s) (hl : s.latched = true) (hstop : s.cfg.params.stopOnDataNack = false)
    (hcomplete : s.answers[m]? = some true) (hack : s.answers[m + 1]? = some false) :
    step (s.underway .dataWaitComplete es m i) =
      .next ((s.underway .dataWaitComplete es (m + 2) i).raiseAbort (.dataNackFailure (BitVec.ofNat 8 i)) false) := by
  rw [step_dataAck (underway_quiet hq) hl rfl (State.underway_answer _ hcomplete), State.underway_sampled,
    State.underway_answer _ hack, if_neg (by simp), State.underway_waited, State.underway_sampled, ← hstop]
  rfl

/-- The stop is issued and completes (R202, R203). -/
theorem runSteps_underway_stop (hq : Quiet s) (ha : s.answers[m]? = some true) :
    runSteps 2 (s.underway .stoppingIssue es m i) = .next (s.underway .done (es ++ [.stop]) (m + 1) i) := by
  have hissue := step_stopIssue (s := s.underway .stoppingIssue es m i) hq rfl
  rw [State.underway_emit] at hissue
  have hstop := step_stopped (s := s.underway .stoppingWaitStop (es ++ [.stop]) m i) hq rfl
    (State.underway_answer _ ha)
  rw [State.underway_waited] at hstop
  exact (runSteps_succ hissue 1).trans (runSteps_succ hstop 0)

end

/-! ### The bytes of a transaction -/

/-- A transaction whose samples are 1 so far comes to byte `j` with the bytes before it sent (R193 to R201). -/
theorem runSteps_toByte {s : State} (hs : s.Inv) (hr : s.resetAsserted = false) (hf : s.fsm = .idle) (j : Nat)
    (hj : j ≤ s.n) (ha : ∀ m < 6 + 3 * j, s.answers[m]? = some true) :
    runSteps (5 + 2 * j) s = .next (s.underway (s.toByte j) (sentUpTo s j) (6 + 3 * j) j) := by
  have hq := hs.quiet hr (by simp [hf])
  have hl : s.latched = true := hs.busy_latched (s.busy_iff.2 (by simp [hf]))
  induction j with
  | zero =>
    calc runSteps 5 s
        = runSteps 3 (s.underway .startingWaitStart [.start] 1 s.i) :=
          runSteps_add (runSteps_underway_start hq hf (ha 0 (by omega))) 3
      _ = runSteps 2 (s.underway .addressWaitReady [.start] 3 s.i) :=
          runSteps_succ (step_underway_started hq (ha 1 (by omega)) (ha 2 (by omega))) 2
      _ = runSteps 1 (s.underway .addressWaitComplete (sentUpTo s 0) 4 s.i) :=
          runSteps_succ (step_underway_addressSend hq hl (ha 3 (by omega))) 1
      _ = .next (s.underway (s.toByte 0) (sentUpTo s 0) 6 0) :=
          runSteps_succ (step_underway_addressAck hq hl hs.i_le (ha 4 (by omega)) (ha 5 (by omega))) 0
  | succ j ih =>
    have hlen : j < s.buf.length := hs.buf_len ▸ Nat.lt_of_lt_of_le hj hs.n_le
    have hb := List.getElem?_eq_getElem hlen
    have hrun := ih (Nat.le_of_succ_le hj) fun m hm => ha m (by omega)
    rw [State.toByte_of_lt hj] at hrun
    calc runSteps (5 + 2 * j + 2) s
        = runSteps 2 (s.underway .dataWaitReady (sentUpTo s j) (6 + 3 * j) j) := runSteps_add hrun 2
      _ = runSteps 1 (s.underway .dataWaitComplete (sentUpTo s (j + 1)) (6 + 3 * j + 1) j) := by
          rw [sentUpTo_succ hb]
          exact runSteps_succ (step_underway_dataSend hq hl hj hb (ha _ (by omega))) 1
      _ = .next (s.underway (s.toByte (j + 1)) (sentUpTo s (j + 1)) (6 + 3 * (j + 1)) (j + 1)) :=
          runSteps_succ (step_underway_dataAck hq hl (ha _ (by omega)) (ha _ (by omega))) 0

/-- A requester's transaction whose samples are all 1 sends every byte, stops and returns SUCCESS (R202, R203, R207). -/
theorem runSteps_success {s : State} (hs : s.Inv) (hr : s.resetAsserted = false) (hf : s.fsm = .idle)
    (hc : s.caller = .requester) (ha : ∀ m < 7 + 3 * s.n, s.answers[m]? = some true) :
    runSteps (8 + 2 * s.n) s =
      .next (((s.underway .done (sentUpTo s s.n ++ [Event.stop]) (6 + 3 * s.n + 1) s.n).returnResult .success).setFsm
        .ready) := by
  have hq := hs.quiet hr (by simp [hf])
  have hrun := runSteps_toByte hs hr hf s.n le_rfl fun m hm => ha m (by omega)
  rw [State.toByte_n] at hrun
  calc runSteps (8 + 2 * s.n) s
      = runSteps (5 + 2 * s.n + 3) s := by rw [Nat.add_right_comm]
    _ = runSteps 3 (s.underway .stoppingIssue (sentUpTo s s.n) (6 + 3 * s.n) s.n) := runSteps_add hrun 3
    _ = runSteps 1 (s.underway .done (sentUpTo s s.n ++ [Event.stop]) (6 + 3 * s.n + 1) s.n) :=
        runSteps_add (runSteps_underway_stop hq (ha _ (by omega))) 1
    _ = _ := runSteps_succ (step_done_requester (underway_quiet hq) rfl hc) 0

/-- The transaction of `s`, aborted by the NACK of byte `j` with no stop (R201). -/
def State.nacked (s : State) (j : Nat) : State :=
  (s.underway .dataWaitComplete (sentUpTo s (j + 1)) (6 + 3 * j + 3) j).raiseAbort
    (.dataNackFailure (BitVec.ofNat 8 j)) false

/-- A requester's transaction whose byte `j` is the first not acknowledged sends it, aborts with no stop where
STOP_ON_DATA_NACK is false, and returns the error (R201, R206, R208). -/
theorem runSteps_dataNack {s : State} (hs : s.Inv) (hr : s.resetAsserted = false) (hf : s.fsm = .idle)
    (hc : s.caller = .requester) {j : Nat} (hj : j < s.n) (hnostop : s.cfg.params.stopOnDataNack = false)
    (ha : ∀ m < 8 + 3 * j, s.answers[m]? = some true) (hnack : s.answers[8 + 3 * j]? = some false) :
    runSteps (8 + 2 * j) s =
      .next (((s.nacked j).returnResult (.error (.dataNackFailure (BitVec.ofNat 8 j)))).setFsm .ready) := by
  have hq := hs.quiet hr (by simp [hf])
  have hl : s.latched = true := hs.busy_latched (s.busy_iff.2 (by simp [hf]))
  have hlen : j < s.buf.length := hs.buf_len ▸ Nat.lt_of_lt_of_le hj hs.n_le
  have hb := List.getElem?_eq_getElem hlen
  have hrun := runSteps_toByte hs hr hf j hj.le fun m hm => ha m (by omega)
  rw [State.toByte_of_lt hj] at hrun
  have hlast : s.answers[6 + 3 * j + 1 + 1]? = some false := by
    rwa [show 6 + 3 * j + 1 + 1 = 8 + 3 * j by omega]
  calc runSteps (8 + 2 * j) s
      = runSteps (5 + 2 * j + 3) s := by rw [Nat.add_right_comm]
    _ = runSteps 3 (s.underway .dataWaitReady (sentUpTo s j) (6 + 3 * j) j) := runSteps_add hrun 3
    _ = runSteps 2 (s.underway .dataWaitComplete (sentUpTo s (j + 1)) (6 + 3 * j + 1) j) := by
        rw [sentUpTo_succ hb]
        exact runSteps_succ (step_underway_dataSend hq hl hj hb (ha _ (by omega))) 2
    _ = runSteps 1 (s.nacked j) :=
        runSteps_succ (step_underway_dataNack hq hl hnostop (ha _ (by omega)) hlast) 1
    _ = _ := runSteps_succ (step_aborted_requester (s := s.nacked j) hq rfl rfl hc) 0

end Machine

namespace Certificates

open Machine

/-- Settles O50: it holds. By induction on the polls, each of which the invariant survives. -/
theorem unboundedWaitNeverReturns : Obligations.UnboundedWaitNeverReturns := by
  unfold Obligations.UnboundedWaitNeverReturns
  intro s k rest hs hr hw hlim ha
  induction k generalizing s with
  | zero =>
    obtain rfl : s.answers = rest := ha
    rfl
  | succ k ih =>
    have hstep := step_waiting hs hr hw hlim (by rw [ha]; exact getElem?_replicate_append rest k.succ_pos)
    have hrest : s.sampled.answers = List.replicate k false ++ rest := by simp [ha, List.replicate_succ]
    rw [runSteps_succ hstep, ih s.sampled (stepKeepsTheInvariant s _ hs hstep) hr hw hlim hrest]
    simp [State.sampled, Nat.add_assoc, Nat.add_comm 1]

/-- Settles O49: it holds. By induction on the iterations, none of which a limit ends. -/
theorem unboundedRecoveryNeverReturns : Obligations.UnboundedRecoveryNeverReturns := by
  unfold Obligations.UnboundedRecoveryNeverReturns
  intro s k rest hs hr hf hlim ha
  have he : s.encoding = none := (hs.quiet hr (by simp [hf])).2
  have hrun := runSteps_inRecovery hs hr hf k
    (fun m hm => ha ▸ getElem?_replicate_append rest (Nat.lt_succ_of_le hm)) (by simp [hlim])
  exact ⟨_, hrun, ⟨rfl, rfl, rfl, rfl, he, rfl, rfl, hr⟩, rfl, rfl, rfl, rfl, rfl⟩

/-- Settles O48: it holds. The iterations before the last find the bus busy, and the last one times out. -/
theorem boundedRecoveryTimesOut : Obligations.BoundedRecoveryTimesOut := by
  unfold Obligations.BoundedRecoveryTimesOut
  intro s k rest hs hr hf hc hk ha
  have hq := hs.quiet hr (by simp [hf])
  have hl : s.latched = true := hs.busy_latched (s.busy_iff.2 (by simp [hf]))
  obtain ⟨j, rfl⟩ : ∃ j, k = j + 1 := Nat.exists_eq_succ_of_ne_zero ((config_bounds_pos s.cfg).1 k hk).ne'
  have hfalse {m : Nat} (hm : m < j + 1 + 1) : s.answers[m]? = some false := ha ▸ getElem?_replicate_append rest hm
  have hrun := runSteps_inRecovery hs hr hf j (fun m hm => hfalse (by omega)) (by simp [hk])
  have htimeout := step_recoveryTimeout (s := s.inRecovery j) hq rfl (.inl hl)
    (State.inRecovery_answer _ (hfalse (by omega))) hk le_rfl
  rw [State.inRecovery_forceStop_sampled] at htimeout
  have hreturn := step_aborted_requester (s := (s.inRecovery (j + 1)).timeout) hq rfl rfl hc
  refine ⟨_, ((runSteps_add hrun 2).trans (runSteps_succ htimeout 1)).trans (runSteps_succ hreturn 0),
    ⟨rfl, rfl, rfl, rfl, hq.2, rfl, rfl, hr⟩, rfl, rfl, rfl, rfl, rfl, ?_⟩
  show s.answers.drop (j + 1 + 1) = rest
  rw [ha, drop_replicate_append]

/-- Settles O46: it holds. The run comes past its last byte, and the stop and the return are three more steps. -/
theorem allOnesTransactionSucceeds : Obligations.AllOnesTransactionSucceeds := by
  unfold Obligations.AllOnesTransactionSucceeds
  intro s rest hs hr hf hc ha
  have he : s.encoding = none := (hs.quiet hr (by simp [hf])).2
  have hrun := runSteps_success hs hr hf hc fun m hm => ha ▸ getElem?_replicate_append rest hm
  refine ⟨_, hrun, ⟨rfl, rfl, rfl, rfl, he, rfl, rfl, hr⟩, ?_, rfl, rfl, rfl, rfl, hs.idle_fresh hf, rfl, ?_⟩
  · simp [State.underway, sentUpTo]
  · show s.answers.drop (6 + 3 * s.n + 1) = rest
    rw [ha, Nat.add_right_comm, drop_replicate_append]

/-- Settles O47: it holds. The run comes to byte `j`, which is sent, and its NACK aborts and is returned. -/
theorem firstDataNackEndsTheTransaction : Obligations.FirstDataNackEndsTheTransaction := by
  unfold Obligations.FirstDataNackEndsTheTransaction
  intro s j rest hs hr hf hc hj hnostop ha
  have he : s.encoding = none := (hs.quiet hr (by simp [hf])).2
  have hnack : s.answers[8 + 3 * j]? = some false := by
    rw [ha, List.getElem?_append_right (by simp)]
    simp
  have hrun := runSteps_dataNack hs hr hf hc hj hnostop
    (fun m hm => ha ▸ getElem?_replicate_append (false :: rest) hm) hnack
  refine ⟨_, hrun, ⟨rfl, rfl, rfl, rfl, he, rfl, rfl, hr⟩, ?_, rfl, rfl, rfl, rfl, ?_⟩
  · simp [State.nacked, State.underway, sentUpTo]
  · show s.answers.drop (6 + 3 * j + 3) = rest
    rw [ha, show 6 + 3 * j + 3 = 8 + 3 * j + 1 by omega, ← List.drop_drop, drop_replicate_append]
    rfl

end Certificates

end Sys2Proof
end

section
/-! A write to an identifier that no display has (R72, R249). -/

namespace Sys2Proof

namespace Machine

/-- An accepting block answers a write to an identifier with no route with INVALID_ARGUMENT, before it asks about the
text (R249). -/
theorem exec_write_reserved {s : State} {id : DisplayId} (ha : s.accepts = true) (hid : route id = none)
    (text : List Byte) :
    exec (decode (.request (.write id text))) s = .next (s.returnResult (.error .invalidArgument)) := by
  simp [exec_write, State.writeRequest, ha, hid]

end Machine

namespace Certificates

open Machine

/-- Settles O31: it holds. Each of the three rows is the write to an identifier that has no route. -/
theorem reservedIdIsRejected : Obligations.ReservedIdIsRejected := by
  unfold Obligations.ReservedIdIsRejected
  intro s text ha
  have hacc := s.accepts_iff.2 ha
  exact ⟨exec_write_reserved (id := 5) hacc rfl text, exec_write_reserved (id := 6) hacc rfl text,
    exec_write_reserved (id := 7) hacc rfl text⟩

end Certificates

end Sys2Proof
end
